-- ==== Sys2Proof/Word.lean ====
section
/-! DEFINITION. The words of the RCE: what the spec treats as bits (00_scope R8). -/

namespace Sys2Proof

/-- Width of the type of addresses: "8-bit register address" (R71 to R74). The parameter `ADDR_BITS` of R6 is `Config.addrBits`. -/
abbrev addrBits : Nat := 8

/-- Width of the type of bytes: "A byte is 8 bits" (R8). The parameter `DATA_BITS` of R6 is `Config.dataBits`. -/
abbrev dataBits : Nat := 8

/-- Width of the length operand, `a[7:0]` (R101). The parameter `LEN_BITS` of R6 is `Config.lenBits`. -/
abbrev lenBits : Nat := 8

/-- A register address on the transport port (R71, R85). -/
abbrev Addr := BitVec addrBits

/-- One byte (R8). -/
abbrev Byte := BitVec dataBits

/-- Operand A of a command and the data of a response (R100, R103). -/
abbrev Word := BitVec 32

/-- A command word, format `CMD48` (R100). -/
abbrev Cmd48 := BitVec 48

end Sys2Proof
end

