-- ==== Sys2Proof/Syntax.lean ====
section
/-! DEFINITION. The 34 commands of the RCE (30_encoding R102), with their operands as R101 reads them. -/

namespace Sys2Proof

/-- One constructor per row of spec/opcode_table.json, in the table's order. A clamped scalar is an integer (R101: `sext_32(a)`,
two's complement, so that "below" the range includes negative inputs); the other operands are the bits the command uses. -/
inductive Instr where
  /-- `DRIVER_INIT`, R210. -/
  | driverInit
  /-- `CLOSE`, R214. -/
  | close
  /-- `SET_FREQUENCY`, R130: hertz, `zext_32(a)`. -/
  | setFrequency (hz : BitVec 32)
  /-- `SET_SPREADING_FACTOR`, R132: `sext_32(a)`. -/
  | setSpreadingFactor (sf : Int)
  /-- `SET_BANDWIDTH`, R134: the bandwidth index, `sext_32(a)`. -/
  | setBandwidth (index : Int)
  /-- `SET_CODING_RATE`, R136: the denominator, `sext_32(a)`. -/
  | setCodingRate (denominator : Int)
  /-- `SET_PREAMBLE_LENGTH`, R138: `a[15:0]`. -/
  | setPreambleLength (length : BitVec 16)
  /-- `SET_SYNC_WORD`, R140: `a[7:0]`. -/
  | setSyncWord (word : Byte)
  /-- `SET_CRC`, R142: `a[0]`. -/
  | setCrc (enable : Bool)
  /-- `SET_TX_POWER`, R144: the level, `sext_32(a)`. -/
  | setTxPower (level : Int)
  /-- `SET_DIO_MAPPING`, R146: the pin is `b`, the mode `sext_32(a)`. -/
  | setDioMapping (pin : Byte) (mode : Int)
  /-- `GET_FREQUENCY`, R131. -/
  | getFrequency
  /-- `GET_SPREADING_FACTOR`, R133. -/
  | getSpreadingFactor
  /-- `GET_BANDWIDTH`, R135. -/
  | getBandwidth
  /-- `GET_CODING_RATE`, R137. -/
  | getCodingRate
  /-- `GET_PREAMBLE_LENGTH`, R139. -/
  | getPreambleLength
  /-- `GET_SYNC_WORD`, R141. -/
  | getSyncWord
  /-- `GET_CRC`, R143. -/
  | getCrc
  /-- `GET_TX_POWER`, R145. -/
  | getTxPower
  /-- `GET_DIO_MAPPING`, R147: the pin is `b`. -/
  | getDioMapping (pin : Byte)
  /-- `MODE_SLEEP`, R171. -/
  | modeSleep
  /-- `MODE_STANDBY`, R172. -/
  | modeStandby
  /-- `MODE_RECEIVE`, R173. -/
  | modeReceive
  /-- `MODE_TRANSMIT`, R174. -/
  | modeTransmit
  /-- `SET_EXPLICIT_HEADER`, R175. -/
  | setExplicitHeader
  /-- `SET_IMPLICIT_HEADER`, R176: the fixed payload size, `a[7:0]`. -/
  | setImplicitHeader (size : Byte)
  /-- `SEND_PACKET`, R180: the payload length, `a[7:0]`. -/
  | sendPacket (len : BitVec lenBits)
  /-- `RECEIVE_PACKET`, R190: the capacity in bytes, `zext_32(a)`. -/
  | receivePacket (capacity : BitVec 32)
  /-- `POLL_RECEIVED`, R192. -/
  | pollReceived
  /-- `GET_IRQ_FLAGS`, R200. -/
  | getIrqFlags
  /-- `PACKET_LOST_COUNT`, R201. -/
  | packetLostCount
  /-- `PACKET_RSSI`, R202. -/
  | packetRssi
  /-- `PACKET_SNR`, R203. -/
  | packetSnr
  /-- `DUMP_REGISTERS`, R204. -/
  | dumpRegisters
  deriving DecidableEq, Repr

end Sys2Proof
end

