-- ==== Sys2Proof/WellFormed.lean ====
section
/-! DEFINITION. Which commands a 48-bit word can say: the clamped scalars are 32-bit two's complement (30_encoding R101). -/

namespace Sys2Proof

/-- R101: `sext_32(a)` reaches exactly "-2147483648 to 2147483647". -/
def fitsSext32 (v : Int) : Bool := decide (-2147483648 ≤ v) && decide (v ≤ 2147483647)

/-- A command is well formed if its signed operand fits the 32 bits of operand A. No operand VALUE is ill formed: setters clamp
(R148, 40_config) and a pin above 5 is a command like any other, answered `FAILURE` (R146, R147). -/
def Instr.wf : Instr → Bool
  | .driverInit => true
  | .close => true
  | .setFrequency _ => true
  | .setSpreadingFactor sf => fitsSext32 sf
  | .setBandwidth index => fitsSext32 index
  | .setCodingRate denominator => fitsSext32 denominator
  | .setPreambleLength _ => true
  | .setSyncWord _ => true
  | .setCrc _ => true
  | .setTxPower level => fitsSext32 level
  | .setDioMapping _ mode => fitsSext32 mode
  | .getFrequency => true
  | .getSpreadingFactor => true
  | .getBandwidth => true
  | .getCodingRate => true
  | .getPreambleLength => true
  | .getSyncWord => true
  | .getCrc => true
  | .getTxPower => true
  | .getDioMapping _ => true
  | .modeSleep => true
  | .modeStandby => true
  | .modeReceive => true
  | .modeTransmit => true
  | .setExplicitHeader => true
  | .setImplicitHeader _ => true
  | .sendPacket _ => true
  | .receivePacket _ => true
  | .pollReceived => true
  | .getIrqFlags => true
  | .packetLostCount => true
  | .packetRssi => true
  | .packetSnr => true
  | .dumpRegisters => true

end Sys2Proof
end

