-- ==== Sys2Proof/Decode.lean ====
section
/-! DEFINITION. The command word CMD48 (30_encoding R100 to R102, R105, R106): decoder, then encoder. -/

namespace Sys2Proof

/-- Why a word is no command of the table. -/
inductive DecodeError where
  /-- R105: the opcode is not in the table of R102. The RCE accepts such a word and answers `FAILURE`. -/
  | illegalOpcode (op : Byte)
  deriving DecidableEq, Repr

/-- R100: bits `[47:40]`, the opcode. -/
def Cmd48.op (w : Cmd48) : Byte := w.extractLsb' 40 8

/-- R100: bits `[39:32]`, operand B. -/
def Cmd48.b (w : Cmd48) : Byte := w.extractLsb' 32 8

/-- R100: bits `[31:0]`, operand A. -/
def Cmd48.a (w : Cmd48) : Word := w.extractLsb' 0 32

/-- R101: `sext_32(a)`. -/
def sext32 (a : Word) : Int := a.toInt

/-- R101: `a[7:0]`; `a[31:8]` ignored. -/
def low8 (a : Word) : Byte := a.extractLsb' 0 8

/-- R101: `a[15:0]`; `a[31:16]` ignored. -/
def low16 (a : Word) : BitVec 16 := a.extractLsb' 0 16

/-- R101: `a[0]`; `a[31:1]` ignored. -/
def bit0 (a : Word) : Bool := a.getLsbD 0

/-- R102, R101: the command of opcode `op` with operands `b` and `a`. A command is selected by `op` alone (R100). -/
def decodeFields (op : Nat) (b : Byte) (a : Word) : Option Instr :=
  match op with
  | 0x01 => some .driverInit
  | 0x02 => some .close
  | 0x10 => some (.setFrequency a)
  | 0x11 => some (.setSpreadingFactor (sext32 a))
  | 0x12 => some (.setBandwidth (sext32 a))
  | 0x13 => some (.setCodingRate (sext32 a))
  | 0x14 => some (.setPreambleLength (low16 a))
  | 0x15 => some (.setSyncWord (low8 a))
  | 0x16 => some (.setCrc (bit0 a))
  | 0x17 => some (.setTxPower (sext32 a))
  | 0x18 => some (.setDioMapping b (sext32 a))
  | 0x20 => some .getFrequency
  | 0x21 => some .getSpreadingFactor
  | 0x22 => some .getBandwidth
  | 0x23 => some .getCodingRate
  | 0x24 => some .getPreambleLength
  | 0x25 => some .getSyncWord
  | 0x26 => some .getCrc
  | 0x27 => some .getTxPower
  | 0x28 => some (.getDioMapping b)
  | 0x30 => some .modeSleep
  | 0x31 => some .modeStandby
  | 0x32 => some .modeReceive
  | 0x33 => some .modeTransmit
  | 0x34 => some .setExplicitHeader
  | 0x35 => some (.setImplicitHeader (low8 a))
  | 0x40 => some (.sendPacket (low8 a))
  | 0x41 => some (.receivePacket a)
  | 0x42 => some .pollReceived
  | 0x50 => some .getIrqFlags
  | 0x51 => some .packetLostCount
  | 0x52 => some .packetRssi
  | 0x53 => some .packetSnr
  | 0x54 => some .dumpRegisters
  | _ => none

/-- The command a word says; a word whose opcode is not in the table is rejected by name (R105). -/
def decode (w : Cmd48) : Except DecodeError Instr :=
  match decodeFields w.op.toNat w.b w.a with
  | some i => .ok i
  | none => .error (.illegalOpcode w.op)

/-- The command word of an instruction numbered as spec/opcode_table.json numbers it: one 48-bit word, every bit above `nbits` 0. -/
def tableWord (nbits w : Nat) : Cmd48 := BitVec.ofNat 48 (w % 2 ^ nbits)

/-- The decoder on an instruction whose bits are `w`. -/
def decodeTableWord (nbits w : Nat) : Option Instr := (decode (tableWord nbits w)).toOption

/-- R102: the opcode of a command. -/
def Instr.opcode : Instr → Byte
  | .driverInit => 0x01
  | .close => 0x02
  | .setFrequency _ => 0x10
  | .setSpreadingFactor _ => 0x11
  | .setBandwidth _ => 0x12
  | .setCodingRate _ => 0x13
  | .setPreambleLength _ => 0x14
  | .setSyncWord _ => 0x15
  | .setCrc _ => 0x16
  | .setTxPower _ => 0x17
  | .setDioMapping _ _ => 0x18
  | .getFrequency => 0x20
  | .getSpreadingFactor => 0x21
  | .getBandwidth => 0x22
  | .getCodingRate => 0x23
  | .getPreambleLength => 0x24
  | .getSyncWord => 0x25
  | .getCrc => 0x26
  | .getTxPower => 0x27
  | .getDioMapping _ => 0x28
  | .modeSleep => 0x30
  | .modeStandby => 0x31
  | .modeReceive => 0x32
  | .modeTransmit => 0x33
  | .setExplicitHeader => 0x34
  | .setImplicitHeader _ => 0x35
  | .sendPacket _ => 0x40
  | .receivePacket _ => 0x41
  | .pollReceived => 0x42
  | .getIrqFlags => 0x50
  | .packetLostCount => 0x51
  | .packetRssi => 0x52
  | .packetSnr => 0x53
  | .dumpRegisters => 0x54

/-- R101: operand B; a command that does not use it has 0 there (R106: "an assembler emits them as 0"). -/
def Instr.operandB : Instr → Byte
  | .setDioMapping pin _ => pin
  | .getDioMapping pin => pin
  | .driverInit => 0
  | .close => 0
  | .setFrequency _ => 0
  | .setSpreadingFactor _ => 0
  | .setBandwidth _ => 0
  | .setCodingRate _ => 0
  | .setPreambleLength _ => 0
  | .setSyncWord _ => 0
  | .setCrc _ => 0
  | .setTxPower _ => 0
  | .getFrequency => 0
  | .getSpreadingFactor => 0
  | .getBandwidth => 0
  | .getCodingRate => 0
  | .getPreambleLength => 0
  | .getSyncWord => 0
  | .getCrc => 0
  | .getTxPower => 0
  | .modeSleep => 0
  | .modeStandby => 0
  | .modeReceive => 0
  | .modeTransmit => 0
  | .setExplicitHeader => 0
  | .setImplicitHeader _ => 0
  | .sendPacket _ => 0
  | .receivePacket _ => 0
  | .pollReceived => 0
  | .getIrqFlags => 0
  | .packetLostCount => 0
  | .packetRssi => 0
  | .packetSnr => 0
  | .dumpRegisters => 0

/-- R101: operand A, its unused bits 0 (R106). -/
def Instr.operandA : Instr → Word
  | .setFrequency hz => hz
  | .setSpreadingFactor sf => BitVec.ofInt 32 sf
  | .setBandwidth index => BitVec.ofInt 32 index
  | .setCodingRate denominator => BitVec.ofInt 32 denominator
  | .setPreambleLength length => length.setWidth 32
  | .setSyncWord word => word.setWidth 32
  | .setCrc enable => (BitVec.ofBool enable).setWidth 32
  | .setTxPower level => BitVec.ofInt 32 level
  | .setDioMapping _ mode => BitVec.ofInt 32 mode
  | .setImplicitHeader size => size.setWidth 32
  | .sendPacket len => len.setWidth 32
  | .receivePacket capacity => capacity
  | .driverInit => 0
  | .close => 0
  | .getFrequency => 0
  | .getSpreadingFactor => 0
  | .getBandwidth => 0
  | .getCodingRate => 0
  | .getPreambleLength => 0
  | .getSyncWord => 0
  | .getCrc => 0
  | .getTxPower => 0
  | .getDioMapping _ => 0
  | .modeSleep => 0
  | .modeStandby => 0
  | .modeReceive => 0
  | .modeTransmit => 0
  | .setExplicitHeader => 0
  | .pollReceived => 0
  | .getIrqFlags => 0
  | .packetLostCount => 0
  | .packetRssi => 0
  | .packetSnr => 0
  | .dumpRegisters => 0

/-- R100: the word of a command, `{op, b, a}`. -/
def encode (i : Instr) : Cmd48 := i.opcode ++ i.operandB ++ i.operandA

/-- R101, R106: the bits of a word that the command of opcode `op` uses, the opcode among them; every other bit is ignored. -/
def usedBits (op : Nat) : Cmd48 :=
  match op with
  | 0x10 | 0x11 | 0x12 | 0x13 | 0x17 | 0x41 => 0xFF00FFFFFFFF
  | 0x14 => 0xFF000000FFFF
  | 0x15 | 0x35 | 0x40 => 0xFF00000000FF
  | 0x16 => 0xFF0000000001
  | 0x18 => 0xFFFFFFFFFFFF
  | 0x28 => 0xFFFF00000000
  | _ => 0xFF0000000000

end Sys2Proof
end

