-- ==== Sys2Proof/Config.lean ====
section
/-! DEFINITION. The parameters of the RCE (00_scope R6, R7) as one record, and the free values: opaque constants that nothing can evaluate. -/

namespace Sys2Proof

/-- The parameters of 00_scope R6 and R7, under their names there. "A rule of this spec never uses the number, only the name"
(R7), so the meanings read them from this record. -/
structure Config where
  /-- `SF_MIN` (R6). -/
  sfMin : Nat
  /-- `SF_MAX` (R6). -/
  sfMax : Nat
  /-- `BW_MIN` (R6). -/
  bwMin : Nat
  /-- `BW_MAX` (R6). -/
  bwMax : Nat
  /-- `CR_MIN` (R6). -/
  crMin : Nat
  /-- `CR_MAX` (R6). -/
  crMax : Nat
  /-- `CR_BIAS` (R6). -/
  crBias : Nat
  /-- `PWR_MIN` (R6). -/
  pwrMin : Nat
  /-- `PWR_MAX` (R6). -/
  pwrMax : Nat
  /-- `PWR_BIAS` (R6). -/
  pwrBias : Nat
  /-- `DIO_PIN_COUNT` (R6). -/
  dioPinCount : Nat
  /-- `DIO_PINS_IN_REG1` (R6). -/
  dioPinsInReg1 : Nat
  /-- `DIO_MODE_MAX` (R6). -/
  dioModeMax : Nat
  /-- `FRF_NUM_SHIFT` (R6). -/
  frfNumShift : Nat
  /-- `FXOSC_HZ` (R6). -/
  fxoscHz : Nat
  /-- `FRF_BITS` (R6): width of the frequency register value. -/
  frfBits : Nat
  /-- `POLL_CAP` (R6). -/
  pollCap : Nat
  /-- `POLL_DELAY_MS` (R6). -/
  pollDelayMs : Nat
  /-- `RSSI_OFFSET_LOW` (R6). -/
  rssiOffsetLow : Nat
  /-- `RSSI_OFFSET_HIGH` (R6). -/
  rssiOffsetHigh : Nat
  /-- `RSSI_BAND_HZ` (R6). -/
  rssiBandHz : Nat
  /-- `SNR_FRAC_BITS` (R6): fractional bits of the SNR result, "0.25 dB per unit" (R203). -/
  snrFracBits : Nat
  /-- `DUMP_COUNT` (R6). -/
  dumpCount : Nat
  /-- `ADDR_BITS` (R6). At most 8, the width R71 to R74 give an address (log 11). -/
  addrBits : Nat
  /-- `DATA_BITS` (R6). R8 prints its value, 8 (log 11). -/
  dataBits : Nat
  /-- `LEN_BITS` (R6). R101 prints its value, 8 (log 11). -/
  lenBits : Nat
  /-- `ADDR_FIFO` (R7, R32). -/
  addrFifo : Addr
  /-- `ADDR_OP_MODE` (R7, R33). -/
  addrOpMode : Addr
  /-- `ADDR_FRF_MSB` (R7, R34). -/
  addrFrfMsb : Addr
  /-- `ADDR_FRF_MID` (R7, R34). -/
  addrFrfMid : Addr
  /-- `ADDR_FRF_LSB` (R7, R34). -/
  addrFrfLsb : Addr
  /-- `ADDR_PA_CONFIG` (R7, R35). -/
  addrPaConfig : Addr
  /-- `ADDR_LNA` (R7, R36). -/
  addrLna : Addr
  /-- `ADDR_FIFO_ADDR_PTR` (R7, R37). -/
  addrFifoAddrPtr : Addr
  /-- `ADDR_FIFO_TX_BASE` (R7, R38). -/
  addrFifoTxBase : Addr
  /-- `ADDR_FIFO_RX_BASE` (R7, R38). -/
  addrFifoRxBase : Addr
  /-- `ADDR_FIFO_RX_CURRENT` (R7, R39). -/
  addrFifoRxCurrent : Addr
  /-- `ADDR_IRQ_FLAGS` (R7, R40). -/
  addrIrqFlags : Addr
  /-- `ADDR_RX_NB_BYTES` (R7, R41). -/
  addrRxNbBytes : Addr
  /-- `ADDR_PKT_SNR` (R7, R42). -/
  addrPktSnr : Addr
  /-- `ADDR_PKT_RSSI` (R7, R43). -/
  addrPktRssi : Addr
  /-- `ADDR_MODEM_CONFIG_1` (R7, R44). -/
  addrModemConfig1 : Addr
  /-- `ADDR_MODEM_CONFIG_2` (R7, R45). -/
  addrModemConfig2 : Addr
  /-- `ADDR_PREAMBLE_MSB` (R7, R46). -/
  addrPreambleMsb : Addr
  /-- `ADDR_PREAMBLE_LSB` (R7, R46). -/
  addrPreambleLsb : Addr
  /-- `ADDR_PAYLOAD_LENGTH` (R7, R47). -/
  addrPayloadLength : Addr
  /-- `ADDR_MODEM_CONFIG_3` (R7, R48). -/
  addrModemConfig3 : Addr
  /-- `ADDR_DETECT_OPTIMIZE` (R7, R49). -/
  addrDetectOptimize : Addr
  /-- `ADDR_DETECT_THRESHOLD` (R7, R49). -/
  addrDetectThreshold : Addr
  /-- `ADDR_SYNC_WORD` (R7, R50). -/
  addrSyncWord : Addr
  /-- `ADDR_DIO_MAPPING_1` (R7, R51). -/
  addrDioMapping1 : Addr
  /-- `ADDR_DIO_MAPPING_2` (R7, R51). -/
  addrDioMapping2 : Addr
  /-- `ADDR_VERSION` (R7, R52). -/
  addrVersion : Addr
  /-- `OPMODE_LONG_RANGE` (R7, R33). -/
  opmodeLongRange : Byte
  /-- `OPMODE_SLEEP` (R7, R33). -/
  opmodeSleep : Byte
  /-- `OPMODE_STANDBY` (R7, R33). -/
  opmodeStandby : Byte
  /-- `OPMODE_TX` (R7, R33). -/
  opmodeTx : Byte
  /-- `OPMODE_RX_CONT` (R7, R33). -/
  opmodeRxCont : Byte
  /-- `IRQ_TX_DONE` (R7, R40). -/
  irqTxDone : Byte
  /-- `IRQ_RX_DONE` (R7, R40). -/
  irqRxDone : Byte
  /-- `IRQ_CRC_ERROR` (R7, R40). -/
  irqCrcError : Byte
  /-- `PA_BOOST` (R7, R35). -/
  paBoost : Byte
  /-- `PWR_FIELD_MASK` (R7, R35). -/
  pwrFieldMask : Byte
  /-- `LNA_BOOST_MASK` (R7, R36). -/
  lnaBoostMask : Byte
  /-- `MC3_AGC_AUTO` (R7, R48). -/
  mc3AgcAuto : Byte
  /-- `MC1_BW_SHIFT` (R7, R44). -/
  mc1BwShift : Nat
  /-- `MC1_BW_MASK` (R7, R44). -/
  mc1BwMask : Byte
  /-- `MC1_CR_SHIFT` (R7, R44). -/
  mc1CrShift : Nat
  /-- `MC1_CR_MASK` (R7, R44). -/
  mc1CrMask : Byte
  /-- `MC1_IMPLICIT_HEADER` (R7, R44). -/
  mc1ImplicitHeader : Byte
  /-- `MC2_SF_SHIFT` (R7, R45). -/
  mc2SfShift : Nat
  /-- `MC2_SF_MASK` (R7, R45). -/
  mc2SfMask : Byte
  /-- `MC2_CRC_ON` (R7, R45). -/
  mc2CrcOn : Byte
  /-- `DETECT_OPT_SF6` (R7, R49). -/
  detectOptSf6 : Byte
  /-- `DETECT_THR_SF6` (R7, R49). -/
  detectThrSf6 : Byte
  /-- `DETECT_OPT_NORMAL` (R7, R49). -/
  detectOptNormal : Byte
  /-- `DETECT_THR_NORMAL` (R7, R49). -/
  detectThrNormal : Byte
  /-- `DIO_SHIFT[0..5]` (R7, R51). -/
  dioShift : List Nat
  /-- `VERSION_ID` (R7, R52). -/
  versionId : Byte
  /-- `INIT_RETRY_BUDGET` (R7, D28), an integer at least 1: `none` while it is left OPEN, `some n` where a claim instantiates it. -/
  initRetryBudget : Option Nat
  /-- `INIT_RETRY_DELAY_MS` (R7, D28), an integer at least 0: `none` while it is left OPEN. -/
  initRetryDelayMs : Option Nat
  deriving DecidableEq, Repr

namespace Config

/-- FREE (log 10). `INIT_RETRY_BUDGET` less one: R7 leaves the budget OPEN and says only that it is at least 1 (D28). -/
opaque openRetriesPastFirst : Nat

/-- FREE (log 10). `INIT_RETRY_DELAY_MS`: OPEN in R7, an integer at least 0 (D28). -/
opaque openRetryDelayMs : Nat

/-- FREE (log 2). Whether the environment answers its `n`-th transaction with `ok` (R78), where no scripted answer stands. -/
opaque envOk : Nat → Bool

/-- FREE (log 2, log 17). Byte `i` of the data with which the environment answers its `n`-th transaction (R78), where no scripted
byte stands. -/
opaque envByte : Nat → Nat → Byte

/-- FREE (log 8). Byte `i` of `rxbuf` after a burst read that failed when `n` answers had been drawn (R74, U6: `any value`). -/
opaque spoiledByte : Nat → Nat → Byte

/-- The defaults: R6's (the source's) and R7's (PRESUMED: the SX127x map, "from general knowledge, not in source"; log 9); the two
OPEN parameters are left open (log 10). -/
def default : Config where
  sfMin := 6
  sfMax := 12
  bwMin := 0
  bwMax := 9
  crMin := 5
  crMax := 8
  crBias := 4
  pwrMin := 2
  pwrMax := 17
  pwrBias := 2
  dioPinCount := 6
  dioPinsInReg1 := 4
  dioModeMax := 3
  frfNumShift := 19
  fxoscHz := 32000000
  frfBits := 24
  pollCap := 65535
  pollDelayMs := 10
  rssiOffsetLow := 164
  rssiOffsetHigh := 157
  rssiBandHz := 868000000
  snrFracBits := 2
  dumpCount := 64
  addrBits := 8
  dataBits := 8
  lenBits := 8
  addrFifo := 0x00
  addrOpMode := 0x01
  addrFrfMsb := 0x06
  addrFrfMid := 0x07
  addrFrfLsb := 0x08
  addrPaConfig := 0x09
  addrLna := 0x0C
  addrFifoAddrPtr := 0x0D
  addrFifoTxBase := 0x0E
  addrFifoRxBase := 0x0F
  addrFifoRxCurrent := 0x10
  addrIrqFlags := 0x12
  addrRxNbBytes := 0x13
  addrPktSnr := 0x19
  addrPktRssi := 0x1A
  addrModemConfig1 := 0x1D
  addrModemConfig2 := 0x1E
  addrPreambleMsb := 0x20
  addrPreambleLsb := 0x21
  addrPayloadLength := 0x22
  addrModemConfig3 := 0x26
  addrDetectOptimize := 0x31
  addrDetectThreshold := 0x37
  addrSyncWord := 0x39
  addrDioMapping1 := 0x40
  addrDioMapping2 := 0x41
  addrVersion := 0x42
  opmodeLongRange := 0x80
  opmodeSleep := 0x00
  opmodeStandby := 0x01
  opmodeTx := 0x03
  opmodeRxCont := 0x05
  irqTxDone := 0x08
  irqRxDone := 0x40
  irqCrcError := 0x20
  paBoost := 0x80
  pwrFieldMask := 0x0F
  lnaBoostMask := 0x03
  mc3AgcAuto := 0x04
  mc1BwShift := 4
  mc1BwMask := 0xF0
  mc1CrShift := 1
  mc1CrMask := 0x0E
  mc1ImplicitHeader := 0x01
  mc2SfShift := 4
  mc2SfMask := 0xF0
  mc2CrcOn := 0x04
  detectOptSf6 := 0xC5
  detectThrSf6 := 0x0C
  detectOptNormal := 0xC3
  detectThrNormal := 0x0A
  dioShift := [6, 4, 2, 0, 6, 4]
  versionId := 0x12
  initRetryBudget := none
  initRetryDelayMs := none

/-- The retry budget of R211: where it is left OPEN, a free number that is at least 1. -/
def retryBudget (c : Config) : Nat :=
  match c.initRetryBudget with
  | none => openRetriesPastFirst + 1
  | some n => n

/-- The retry delay of R211 in milliseconds: where it is left OPEN, a free number. -/
def retryDelayMs (c : Config) : Nat :=
  match c.initRetryDelayMs with
  | none => openRetryDelayMs
  | some n => n

/-- The 27 named registers (R31, R32 to R52; C14). -/
def namedAddresses (c : Config) : List Addr :=
  [c.addrFifo, c.addrOpMode, c.addrFrfMsb, c.addrFrfMid, c.addrFrfLsb, c.addrPaConfig, c.addrLna, c.addrFifoAddrPtr,
   c.addrFifoTxBase, c.addrFifoRxBase, c.addrFifoRxCurrent, c.addrIrqFlags, c.addrRxNbBytes, c.addrPktSnr, c.addrPktRssi,
   c.addrModemConfig1, c.addrModemConfig2, c.addrPreambleMsb, c.addrPreambleLsb, c.addrPayloadLength, c.addrModemConfig3,
   c.addrDetectOptimize, c.addrDetectThreshold, c.addrSyncWord, c.addrDioMapping1, c.addrDioMapping2, c.addrVersion]

/-- No element stands twice in the list. -/
def distinct : List Addr → Bool
  | [] => true
  | a :: rest => !rest.contains a && distinct rest

/-- A mask of exactly one bit (R7: "non-zero single-bit masks"). -/
def singleBit (m : Byte) : Bool := [0x01, 0x02, 0x04, 0x08, 0x10, 0x20, 0x40, 0x80].contains m

/-- Two masks that share no bit. -/
def disjoint (m k : Byte) : Bool := m &&& k == 0

/-- Every field value `lo .. lo + n - 1`, shifted into place, is a byte that lies inside the mask (R7: "fits in", read for every
value that is written and not for the largest alone; log 11). -/
def fitsWindow (mask : Byte) (shift lo : Nat) : Nat → Bool
  | 0 => true
  | n + 1 =>
    decide ((lo + n) <<< shift < 256) && (BitVec.ofNat 8 ((lo + n) <<< shift) &&& mask == BitVec.ofNat 8 ((lo + n) <<< shift))
      && fitsWindow mask shift lo n

/-- The two-bit window at a DIO shift: "the mask of pin p is `0x03 << DIO_SHIFT[p]`" (R7, R51). -/
def dioWindow (shift : Nat) : Byte := BitVec.ofNat 8 (0x03 <<< shift)

/-- The windows of the pins of one register are pairwise disjoint (R7). -/
def pairwiseDisjoint : List Byte → Bool
  | [] => true
  | m :: rest => rest.all (disjoint m) && pairwiseDisjoint rest

/-- R7: "Constraints every assignment of these parameters must meet, so that the rules stay meaningful": distinct addresses, single-bit
distinct flag masks, disjoint windows that hold their ranges; with what those constraints and the other rules presuppose (log 11):
ranges that are not empty, biases below the ranges, one shift of at most 6 per pin, DIO modes of two bits, a divisor that is not 0,
named and dumped addresses of `ADDR_BITS` bits, and the widths R8, R71 to R74 and R101 print. `INIT_RETRY_BUDGET` is "an integer at
least 1". -/
def wf (c : Config) : Bool :=
  [ decide (0 < c.fxoscHz),
    decide (c.addrBits ≤ Sys2Proof.addrBits),
    decide (c.dataBits = Sys2Proof.dataBits),
    decide (c.lenBits = Sys2Proof.lenBits),
    decide (c.dumpCount ≤ 2 ^ c.addrBits),
    c.initRetryBudget != some 0,
    distinct c.namedAddresses,
    c.namedAddresses.all (fun a => decide (a.toNat < 2 ^ c.addrBits)),
    singleBit c.irqTxDone,
    singleBit c.irqRxDone,
    singleBit c.irqCrcError,
    pairwiseDisjoint [c.irqTxDone, c.irqRxDone, c.irqCrcError],
    pairwiseDisjoint [c.mc1BwMask, c.mc1CrMask, c.mc1ImplicitHeader],
    disjoint c.mc2SfMask c.mc2CrcOn,
    disjoint c.paBoost c.pwrFieldMask,
    decide (c.sfMin ≤ c.sfMax),
    decide (c.bwMin ≤ c.bwMax),
    decide (c.crMin ≤ c.crMax),
    decide (c.pwrMin ≤ c.pwrMax),
    decide (c.crBias ≤ c.crMin),
    decide (c.pwrBias ≤ c.pwrMin),
    fitsWindow c.mc1BwMask c.mc1BwShift c.bwMin (c.bwMax + 1 - c.bwMin),
    fitsWindow c.mc1CrMask c.mc1CrShift (c.crMin - c.crBias) (c.crMax + 1 - c.crMin),
    fitsWindow c.mc2SfMask c.mc2SfShift c.sfMin (c.sfMax + 1 - c.sfMin),
    fitsWindow c.pwrFieldMask 0 (c.pwrMin - c.pwrBias) (c.pwrMax + 1 - c.pwrMin),
    decide (c.dioShift.length = c.dioPinCount),
    c.dioShift.all (fun n => decide (n ≤ 6)),
    decide (c.dioModeMax ≤ 3),
    pairwiseDisjoint ((c.dioShift.take c.dioPinsInReg1).map dioWindow),
    pairwiseDisjoint ((c.dioShift.drop c.dioPinsInReg1).map dioWindow) ].all id

end Config

end Sys2Proof
end

