-- ==== Sys2Proof/Machine/State.lean ====
section
/-! DEFINITION. The state of the RCE as plain data (10_state R20 to R30, R54, R61), and the ways a step can stop. -/

namespace Sys2Proof.Machine

/-- `st.header_mode` (R21): `Explicit` = 0, `Implicit` = 1. -/
inductive HeaderMode where
  | explicit
  | implicit
  deriving DecidableEq, Repr

/-- `st.operating_mode` (R24): `Sleep` = 0, `Standby` = 1, `Receive` = 2, `Transmit` = 3. -/
inductive Mode where
  | sleep
  | standby
  | receive
  | transmit
  deriving DecidableEq, Repr

/-- The closed set of statuses (30_encoding R104, 60_exceptions R220), in the order of their codes 0x00 to 0x0A. -/
inductive Status where
  | ok
  | regReadFailed
  | regWriteFailed
  | bufReadFailed
  | bufWriteFailed
  | busInitFailed
  | failure
  | initTimeout
  | sendTimeout
  | noData
  | crcError
  deriving DecidableEq, Repr

/-- One response (R29, R103): status and 32-bit data. -/
structure Response where
  status : Status
  data : Word
  deriving DecidableEq, Repr

/-- RadioState (R20): "exactly five architectural registers". -/
structure Radio where
  /-- `st.header_mode`, R21. -/
  headerMode : HeaderMode
  /-- `st.payload_size`, R21. -/
  payloadSize : Byte
  /-- `st.frequency_hz`, R22. -/
  frequencyHz : BitVec 32
  /-- `st.lost_packet_count`, R23. -/
  lostPacketCount : BitVec 32
  /-- `st.operating_mode`, R24. -/
  operatingMode : Mode
  deriving DecidableEq, Repr

/-- What the sequencer asks of the Register Transport: the six primitives (20_memory R70 to R76). The bytes of a burst write are
taken from `txbuf` when it is issued (R90). -/
inductive Op where
  /-- `BusInit()`, R70. -/
  | busInit
  /-- `RegWrite(a, v)`, R71. -/
  | write (a : Addr) (v : Byte)
  /-- `RegRead(a)`, R72. -/
  | read (a : Addr)
  /-- `BurstWrite(a, txbuf[0 .. n-1])`, R73. -/
  | burstWrite (a : Addr) (n : Nat)
  /-- `BurstRead(a, n)`, R74. -/
  | burstRead (a : Addr) (n : Nat)
  /-- `Delay(ms)`, R76. -/
  | delay (ms : Nat)
  deriving DecidableEq, Repr

/-- A transaction as it stands on the transport port, with its arguments (R30, R79). -/
inductive Txn where
  /-- `INIT`, R70. -/
  | busInit
  /-- `W1 a <- v`, R71. -/
  | write (a : Addr) (v : Byte)
  /-- `R1 a`, R72. -/
  | read (a : Addr)
  /-- `WN a <- [b0 b1 ...]`, R73. -/
  | burstWrite (a : Addr) (bytes : List Byte)
  /-- `RN a, n`, R74. -/
  | burstRead (a : Addr) (n : Nat)
  /-- `DELAY ms`, R76. -/
  | delay (ms : Nat)
  deriving DecidableEq, Repr

/-- The environment's answer to a transaction (R78): `ok`, for a read with its data, or `fail`. The transport's own error value is
discarded (R77, U1). -/
inductive Answer where
  | ok (data : List Byte)
  | fail
  deriving DecidableEq, Repr

/-- One entry of the trace: a transaction and its answer (R79). -/
structure Entry where
  txn : Txn
  answer : Answer
  deriving DecidableEq, Repr

/-- The environment's free inputs (R78, log 2): the answers it gives next, and how many it has given. -/
structure Env where
  script : List Answer
  count : Nat
  deriving DecidableEq, Repr

/-- The sequencer state `seq` (R26): `(busy, cmd, step, iter, pending)`, and with `entry` and `answers` "the remaining continuation of
the command's pseudocode" that R26 allows in its place (log 15). -/
structure Seq where
  /-- R26 `busy`. -/
  busy : Bool
  /-- R26 `cmd`: the command word latched at acceptance. -/
  cmd : Cmd48
  /-- R26 `step`: the index of the next transaction in the command's sequence. -/
  step : Nat
  /-- R26, R230 `iter`: the poll-loop iteration counter. A number without a width (DESIGN CHOICE, log 21): for the defaults R26 says 17
  bits and R230's formula gives 16. -/
  iter : Nat
  /-- R26 `pending`: "the status chosen so far by a command that must still clean up". -/
  pending : Status
  /-- The model's own: RadioState at acceptance (log 15). -/
  entry : Radio
  /-- The model's own: the answers the command in flight has had so far, oldest first (log 15). -/
  answers : List Answer
  deriving DecidableEq, Repr

/-- What the host does at the ports (R27, R28, R250, R251), the model's own rendering (log 5). -/
inductive Input where
  /-- The host presents a command word (R27). -/
  | command (w : Cmd48)
  /-- The host fills `txbuf` from index 0, between two commands (R28). -/
  | loadTx (data : List Byte)
  /-- Hardware reset (R250), between two commands. -/
  | reset
  /-- The host presents a command word, and hardware reset strikes after so many further steps of the command (R251; log 18). -/
  | interrupted (w : Cmd48) (ticks : Nat)
  deriving DecidableEq, Repr

/-- A byte array of the host (R28), sparse: index and byte, in one canonical form (`Memory.wf`). -/
abbrev Memory := List Host.Cell

/-- The whole machine. -/
structure State where
  /-- The parameters (00_scope R6, R7); no step writes them (log 9). -/
  config : Config
  /-- RadioState (R20 to R24). -/
  radio : Radio
  /-- The sequencer (R26). -/
  seq : Seq
  /-- The host's moves not yet made, the next one first (R27; log 5). -/
  inputs : List Input
  /-- The responses delivered, oldest first (R29). -/
  responses : List Response
  /-- The transactions issued with their answers, oldest first (R30, R79). -/
  trace : List Entry
  /-- The environment's answers (R78). -/
  env : Env
  /-- `txbuf` (R28). -/
  txbuf : Memory
  /-- `rxbuf` (R28). -/
  rxbuf : Memory
  /-- `dumpbuf` (R28). -/
  dumpbuf : Memory
  deriving DecidableEq, Repr

/-- A fault would be a stop of the machine that the spec describes. It describes none: "all non-fatal to the process" (R220), a
failure "ends the command" with a status and leaves the RCE "idle and usable" (R221, R222). So the type has no constructor and no
step can answer with one; nobody raises it. -/
inductive Fault where
  deriving DecidableEq, Repr

/-- Where the model gives no meaning. -/
inductive Refusal where
  /-- An instruction without a meaning, rejected by its mnemonic in `exec`'s arm. Raised by no arm of this model. Safe. -/
  | notModelled (mnemonic : String)
  /-- Raised by `step` alone, where the parameter table breaks R7's constraints: 93_implementation_defined U9, "is `refuse`: the
  rules are not meant for it". Safe: nothing is claimed of such a machine (log 11). -/
  | badParameters
  deriving DecidableEq, Repr

/-- R61, R250: RadioState after hardware reset. -/
def Radio.reset : Radio where
  headerMode := .explicit
  payloadSize := 0
  frequencyHz := 0
  lostPacketCount := 0
  operatingMode := .sleep

/-- The idle sequencer: `seq.busy = 0`, "the other sequencer fields without meaning" (R61), here all cleared (log 4). -/
def Seq.idle : Seq where
  busy := false
  cmd := 0
  step := 0
  iter := 0
  pending := .ok
  entry := Radio.reset
  answers := []

/-- The machine right after reset (R61, R250): the five registers, the idle sequencer, no transaction issued; the model's own fields
empty (logs 2, 3, 5, 7). -/
def State.reset : State where
  config := Config.default
  radio := Radio.reset
  seq := Seq.idle
  inputs := []
  responses := []
  trace := []
  env := { script := [], count := 0 }
  txbuf := []
  rxbuf := []
  dumpbuf := []

end Sys2Proof.Machine
end

