-- ==== Sys2Proof/Machine/Ops.lean ====
section
/-! DEFINITION. The named operations: host buffers, transport, RadioState updates, responses, reset, and the pseudocode of the commands
(00_scope R9, R10) as a tree of transactions, with the one operation that raises a status (60_exceptions R222). -/

namespace Sys2Proof.Machine

/-! ## Host buffers (R28) -/

/-- What an unlisted byte of a host buffer reads as: 0x00 (DESIGN CHOICE, unsafe; log 7). -/
def Memory.blank : Byte := 0x00

/-- The byte at an index of a host buffer. -/
def Memory.read : Memory → Nat → Byte
  | [], _ => Memory.blank
  | (k, v) :: m, i => if k = i then v else Memory.read m i

/-- Store one byte, keeping the canonical form: indices rising, nothing listed that reads as an unlisted byte does. -/
def Memory.write : Memory → Nat → Byte → Memory
  | [], i, b => if b = Memory.blank then [] else [(i, b)]
  | (k, v) :: m, i, b =>
    if i < k then (if b = Memory.blank then (k, v) :: m else (i, b) :: (k, v) :: m)
    else if k = i then (if b = Memory.blank then m else (i, b) :: m)
    else (k, v) :: Memory.write m i b

/-- Every index listed is at least `lo`, indices rise, and no listed byte is the unlisted one. -/
def Memory.wfFrom (lo : Nat) : Memory → Bool
  | [] => true
  | (k, v) :: m => decide (lo ≤ k) && v != Memory.blank && Memory.wfFrom (k + 1) m

/-- The canonical form of a host buffer. -/
def Memory.wf (m : Memory) : Bool := Memory.wfFrom 0 m

/-- Store bytes at `start`, `start + 1`, … in order (R80: buffer order). -/
def Memory.writeFrom : Memory → Nat → List Byte → Memory
  | m, _, [] => m
  | m, start, b :: rest => Memory.writeFrom (Memory.write m start b) (start + 1) rest

/-- The bytes at indices `0 .. n - 1`, index 0 first. -/
def Memory.firstBytes (m : Memory) (n : Nat) : List Byte := (List.range n).map (Memory.read m)

/-! ## The transport port (R30, R70 to R78) -/

/-- How many bytes of data an `ok` answer carries: one for a read, `n` for a burst read, none for the others (R70 to R76). -/
def Op.dataLength : Op → Nat
  | .busInit => 0
  | .write _ _ => 0
  | .read _ => 1
  | .burstWrite _ _ => 0
  | .burstRead _ n => n
  | .delay _ => 0

/-- Whether the environment answers the primitive: all but `Delay`, which has "no answer other than completion" (R76). -/
def Op.isAnswered : Op → Bool
  | .delay _ => false
  | _ => true

/-- The transaction that stands on the port; a burst write carries `txbuf[0 .. n-1]` as it is when issued (R28, R73, R90). -/
def Op.onPort (txbuf : Memory) : Op → Txn
  | .busInit => .busInit
  | .write a v => .write a v
  | .read a => .read a
  | .burstWrite a n => .burstWrite a (Memory.firstBytes txbuf n)
  | .burstRead a n => .burstRead a n
  | .delay ms => .delay ms

/-- Exactly `n` bytes of data: those of the answer, and free bytes where the answer has too few (log 17). -/
def answerData (count n : Nat) (data : List Byte) : List Byte :=
  (List.range n).map fun i => data.getD i (Config.envByte count i)

/-- The environment's answer to a transaction (R78): the next scripted one, or a free one where the script has ended; `Delay` cannot
fail and draws none (R76). -/
def Env.reply (e : Env) (op : Op) : Answer :=
  if op.isAnswered then
    match e.script with
    | .fail :: _ => .fail
    | .ok data :: _ => .ok (answerData e.count op.dataLength data)
    | [] => if Config.envOk e.count then .ok (answerData e.count op.dataLength []) else .fail
  else .ok []

/-- The environment after its answer. -/
def Env.next (e : Env) (op : Op) : Env :=
  if op.isAnswered then { script := e.script.tail, count := e.count + 1 } else e

/-- The answer the RCE gets if it issues `op` now. -/
def State.reply (s : State) (op : Op) : Answer := s.env.reply op

/-- Issue one transaction and take its answer: one step of the RCE (R5, R30, R87). The trace grows by it (R79) and the sequencer moves
on to the next index (R26). -/
def State.transact (s : State) (op : Op) : State :=
  { s with
    trace := s.trace ++ [{ txn := op.onPort s.txbuf, answer := s.reply op }]
    env := s.env.next op
    seq := { s.seq with step := s.seq.step + 1, answers := s.seq.answers ++ [s.reply op] } }

/-! ## Updates of the RCE's own state -/

/-- The updates a command makes between two transactions. -/
inductive Upd where
  /-- `st.operating_mode <- m` (R170). -/
  | setMode (m : Mode)
  /-- `st.header_mode <- h` (R175, R176). -/
  | setHeader (h : HeaderMode)
  /-- `st.payload_size <- size` (R176). -/
  | setPayloadSize (size : Byte)
  /-- `st.frequency_hz <- f` (R130). -/
  | setFrequency (f : BitVec 32)
  /-- The increment of `st.lost_packet_count` (R183). -/
  | countLost
  /-- `seq.step <- n` (R26: "back to the top of a poll loop, or forward to the cleanup"). -/
  | goto (n : Nat)
  /-- `seq.iter <- seq.iter + 1`: the next iteration of a loop (R26, R230). -/
  | nextIteration
  /-- `seq.pending <- st` (R182). -/
  | setPending (st : Status)
  /-- A cleanup write answered `fail`: `if pending = OK: pending <- REG_WRITE_FAILED` (R184). -/
  | cleanupFailed
  /-- `rxbuf[0 .. n-1] <-` the bytes read (R74, R190). -/
  | storeRx (bytes : List Byte)
  /-- `rxbuf[0 .. n-1]` after a failed burst read: unspecified (R74, U6). -/
  | spoilRx (n : Nat)
  /-- `dumpbuf[i] <- v` (R204). -/
  | storeDump (i : Nat) (v : Byte)
  deriving DecidableEq, Repr

/-- R183: `min(st.lost_packet_count + 1, 2^32 - 1)`. -/
def countLostOnce (n : BitVec 32) : BitVec 32 := BitVec.ofNat 32 (min (n.toNat + 1) (2 ^ 32 - 1))

/-- What an update does to RadioState. -/
def Upd.onRadio (u : Upd) (r : Radio) : Radio :=
  match u with
  | .setMode m => { r with operatingMode := m }
  | .setHeader h => { r with headerMode := h }
  | .setPayloadSize size => { r with payloadSize := size }
  | .setFrequency f => { r with frequencyHz := f }
  | .countLost => { r with lostPacketCount := countLostOnce r.lostPacketCount }
  | .goto _ => r
  | .nextIteration => r
  | .setPending _ => r
  | .cleanupFailed => r
  | .storeRx _ => r
  | .spoilRx _ => r
  | .storeDump _ _ => r

/-- What an update does to the sequencer. -/
def Upd.onSeq (u : Upd) (q : Seq) : Seq :=
  match u with
  | .goto n => { q with step := n }
  | .nextIteration => { q with iter := q.iter + 1 }
  | .setPending st => { q with pending := st }
  | .cleanupFailed => { q with pending := if q.pending = .ok then .regWriteFailed else q.pending }
  | .setMode _ => q
  | .setHeader _ => q
  | .setPayloadSize _ => q
  | .setFrequency _ => q
  | .countLost => q
  | .storeRx _ => q
  | .spoilRx _ => q
  | .storeDump _ _ => q

/-- What an update does to `rxbuf`; `count` tells the free bytes of one failed burst from those of another (log 8). -/
def Upd.onRxbuf (u : Upd) (count : Nat) (m : Memory) : Memory :=
  match u with
  | .storeRx bytes => Memory.writeFrom m 0 bytes
  | .spoilRx n => Memory.writeFrom m 0 ((List.range n).map (Config.spoiledByte count))
  | .setMode _ => m
  | .setHeader _ => m
  | .setPayloadSize _ => m
  | .setFrequency _ => m
  | .countLost => m
  | .goto _ => m
  | .nextIteration => m
  | .setPending _ => m
  | .cleanupFailed => m
  | .storeDump _ _ => m

/-- What an update does to `dumpbuf`. -/
def Upd.onDumpbuf (u : Upd) (m : Memory) : Memory :=
  match u with
  | .storeDump i v => Memory.write m i v
  | .setMode _ => m
  | .setHeader _ => m
  | .setPayloadSize _ => m
  | .setFrequency _ => m
  | .countLost => m
  | .goto _ => m
  | .nextIteration => m
  | .setPending _ => m
  | .cleanupFailed => m
  | .storeRx _ => m
  | .spoilRx _ => m

/-- Make one update. -/
def State.apply (s : State) (u : Upd) : State :=
  { s with
    radio := u.onRadio s.radio
    seq := u.onSeq s.seq
    rxbuf := u.onRxbuf s.env.count s.rxbuf
    dumpbuf := u.onDumpbuf s.dumpbuf }

/-- `respond(S, d)` (R9, R29, R103): deliver the response, and `seq.busy <- 0` (R26). -/
def State.deliver (s : State) (st : Status) (d : Word) : State :=
  { s with responses := s.responses ++ [{ status := st, data := d }], seq := Seq.idle }

/-! ## Commands as trees of transactions -/

/-- The pseudocode of a command (00_scope R9): what it does next, as a function of the answers. -/
inductive Prog where
  /-- `respond(S, d)`. -/
  | respond (st : Status) (d : Word)
  /-- `respond(pending, 0)` (R184). -/
  | respondPending
  /-- Issue a transaction; what follows depends on its answer. -/
  | issue (op : Op) (k : Answer → Prog)
  /-- Make an update. -/
  | update (u : Upd) (p : Prog)
  /-- Read RadioState, at the step whose rule reads it (R90). -/
  | ask (k : Radio → Prog)

/-- Run a command's pseudocode to its response. -/
def Prog.run : Prog → State → State
  | .respond st d, s => s.deliver st d
  | .respondPending, s => s.deliver s.seq.pending 0
  | .issue op k, s => (k (s.reply op)).run (s.transact op)
  | .update u p, s => p.run (s.apply u)
  | .ask k, s => (k s.radio).run s

/-- A command's meaning: run its pseudocode. Every command ends with a response (R29), so there is always a next state. -/
def command (p : Prog) (s : State) : Host.Outcome State Fault Refusal := .next (p.run s)

/-! ## Taking an exception

There is nothing to return from: "no handler, so there is no return instruction and nothing to restore" (R227). After `raise` the next
step is the acceptance of the next command, by the idle sequencer that `State.deliver` leaves. -/

/-- `raise S` (R9, R222), the only exception mechanism: no further transaction, `respond(S, 0)`, idle. "Nothing is saved, because
nothing is resumed": RadioState keeps every update made before it and receives none after it. -/
def raise (st : Status) : Prog := .respond st 0

/-- The two failures that report data all the same (R103, R220): `DUMP_REGISTERS` its entries, `POLL_RECEIVED` its flags. -/
def raiseWith (st : Status) (d : Word) : Prog := .respond st d

/-! ## The primitives as pseudocode (R9, R10) -/

/-- `RegWrite(a, v)` whose failure goes on with `onFail` (R71). -/
def regWriteElse (onFail : Prog) (a : Addr) (v : Byte) (k : Prog) : Prog :=
  .issue (.write a v) fun r =>
    match r with
    | .ok _ => k
    | .fail => onFail

/-- `RegWrite(a, v)`; failure raises `REG_WRITE_FAILED` (R71, R223). -/
def regWrite (a : Addr) (v : Byte) (k : Prog) : Prog := regWriteElse (raise .regWriteFailed) a v k

/-- `RegRead(a)` whose failure goes on with `onFail` (R72); an `ok` answer carries exactly one byte. -/
def regReadElse (onFail : Prog) (a : Addr) (k : Byte → Prog) : Prog :=
  .issue (.read a) fun r =>
    match r with
    | .ok data => k (data.headD 0)
    | .fail => onFail

/-- `RegRead(a)`; failure raises `REG_READ_FAILED` (R72, R223). -/
def regRead (a : Addr) (k : Byte → Prog) : Prog := regReadElse (raise .regReadFailed) a k

/-- R10: the byte a read-modify-write writes, `(old & ~mask) | (val & mask)`. -/
def rmwByte (old mask val : Byte) : Byte := (old &&& ~~~mask) ||| (val &&& mask)

/-- `RMW(addr, mask, val)` (R10): one read and, if it succeeds, one write, "even when `new = old`" (D40). -/
def rmw (a : Addr) (mask val : Byte) (k : Prog) : Prog := regRead a fun old => regWrite a (rmwByte old mask val) k

/-- `BusInit()`; failure raises `BUS_INIT_FAILED` (R70). -/
def busInit (k : Prog) : Prog :=
  .issue .busInit fun r =>
    match r with
    | .ok _ => k
    | .fail => raise .busInitFailed

/-- `Delay(ms)` (R76): no answer other than completion. -/
def delay (ms : Nat) (k : Prog) : Prog := .issue (.delay ms) fun _ => k

/-- `BurstWrite(a, txbuf[0 .. n-1])` (R73); a burst of zero bytes is skipped and counts as succeeded (R75), the sequence going on at
transaction index `next`. -/
def burstWriteElse (onFail : Prog) (a : Addr) (n next : Nat) (k : Prog) : Prog :=
  if n = 0 then .update (.goto next) k
  else .issue (.burstWrite a n) fun r =>
    match r with
    | .ok _ => k
    | .fail => onFail

/-- `rxbuf[0 .. n-1] <- BurstRead(a, n)` (R74); zero bytes as above (R75); failure raises `BUF_READ_FAILED` and leaves those bytes
unspecified (U6). -/
def burstRead (a : Addr) (n next : Nat) (k : Prog) : Prog :=
  if n = 0 then .update (.goto next) k
  else .issue (.burstRead a n) fun r =>
    match r with
    | .ok data => .update (.storeRx data) k
    | .fail => .update (.spoilRx n) (raise .bufReadFailed)

/-- The mode pattern of R170. -/
def modePattern (c : Config) : Mode → Byte
  | .sleep => c.opmodeSleep
  | .standby => c.opmodeStandby
  | .receive => c.opmodeRxCont
  | .transmit => c.opmodeTx

/-- The byte every mode write writes: `OPMODE_LONG_RANGE | pattern` (R33, R170). -/
def modeByte (c : Config) (m : Mode) : Byte := c.opmodeLongRange ||| modePattern c m

/-- `SetMode(M)` (R170) whose failure goes on with `onFail`: one direct write, the declared mode changed only if it answered `ok`. -/
def setModeElse (onFail : Prog) (c : Config) (m : Mode) (k : Prog) : Prog :=
  regWriteElse onFail c.addrOpMode (modeByte c m) (.update (.setMode m) k)

/-- `SetMode(M)` (R170); failure raises `REG_WRITE_FAILED`. -/
def setMode (c : Config) (m : Mode) (k : Prog) : Prog := setModeElse (raise .regWriteFailed) c m k

/-! ## Host side: acceptance, buffer loading, reset -/

/-- Acceptance of a command (R26, R27): `busy <- 1`, `cmd <- word`, `step <- 0`, `iter <- 0`. -/
def State.accept (s : State) (w : Cmd48) : State :=
  { s with
    seq := { busy := true, cmd := w, step := 0, iter := 0, pending := .ok, entry := s.radio, answers := [] } }

/-- The host's next move is made. -/
def State.popInput (s : State) : State := { s with inputs := s.inputs.tail }

/-- The host fills `txbuf[0 ..]`, which ends at index 254 (R28). -/
def State.loadTx (s : State) (data : List Byte) : State :=
  { s with txbuf := Memory.writeFrom s.txbuf 0 (data.take 255) }

/-- Hardware reset (R61, R250, R251): the five registers and the sequencer; no transaction, no response, no cleanup. -/
def State.hardReset (s : State) : State := { s with radio := Radio.reset, seq := Seq.idle }

/-! ## The codes at the ports -/

/-- R21, D38. -/
def HeaderMode.code : HeaderMode → BitVec 1
  | .explicit => 0
  | .implicit => 1

/-- R24, D38. -/
def Mode.code : Mode → BitVec 2
  | .sleep => 0
  | .standby => 1
  | .receive => 2
  | .transmit => 3

/-- R104, R220: the code of a status. -/
def Status.code : Status → BitVec 8
  | .ok => 0x00
  | .regReadFailed => 0x01
  | .regWriteFailed => 0x02
  | .bufReadFailed => 0x03
  | .bufWriteFailed => 0x04
  | .busInitFailed => 0x05
  | .failure => 0x06
  | .initTimeout => 0x07
  | .sendTimeout => 0x08
  | .noData => 0x09
  | .crcError => 0x0A

/-- R103: the 40-bit response word, `[39:32]` the status, `[31:0]` the data. -/
def Response.word (r : Response) : BitVec 40 := r.status.code ++ r.data

end Sys2Proof.Machine
end

