-- ==== Sys2Proof/Machine/Flags.lean ====
section
/-! DEFINITION. Flag computations. The RCE holds no flags (10_state R25): these are tests of one read of the chip's `IRQ_FLAGS` (R40) and
the per-command outputs made from them. -/

namespace Sys2Proof.Machine

/-- Whether a flag of the flags byte is set: `(v & mask) != 0`. -/
def flagSet (v mask : Byte) : Bool := (v &&& mask) != 0

/-- R182: transmit-done; "only the transmit-done bit of `v` is examined". -/
def txDone (c : Config) (v : Byte) : Bool := flagSet v c.irqTxDone

/-- R190, R192: receive-done. -/
def rxDone (c : Config) (v : Byte) : Bool := flagSet v c.irqRxDone

/-- R190: CRC-error. -/
def crcErrorFlag (c : Config) (v : Byte) : Bool := flagSet v c.irqCrcError

/-- R192: `crc_error` is reported only together with receive-done. -/
def pollCrcError (c : Config) (v : Byte) : Bool := rxDone c v && crcErrorFlag c v

/-- R192: the response data `{crc_error, received}`, bit 1 and bit 0. -/
def pollData (c : Config) (v : Byte) : Word :=
  (BitVec.ofBool (pollCrcError c v) ++ BitVec.ofBool (rxDone c v) : BitVec 2).setWidth 32

/-- R143: `1 if (v & MC2_CRC_ON) != 0 else 0`. -/
def crcEnabledData (c : Config) (v : Byte) : Word := if flagSet v c.mc2CrcOn then 1 else 0

end Sys2Proof.Machine
end

