-- ==== Sys2Proof/Machine/Operands.lean ====
section
/-! DEFINITION. Operand ranges, bit fields and value conversions (00_scope R8, R10; 40_config R130 to R149; 44_diagnostics R202, R203). -/

namespace Sys2Proof.Machine

/-- `clamp(v, lo, hi)` (R10), on exact integers: "clamp out-of-range inputs to the nearest valid boundary". -/
def clamp (v lo hi : Int) : Int := if v < lo then lo else if v > hi then hi else v

/-- A clamped operand as the natural number it is (R149: every range begins at 0 or above). -/
def clampTo (v : Int) (lo hi : Nat) : Nat := (clamp v lo hi).toNat

/-- A field value shifted into place, cut to the register's 8 bits (R8). -/
def placed (v shift : Nat) : Byte := BitVec.ofNat 8 (v <<< shift)

/-- The field of a register value: `(v & mask) >> shift` (R133, R135, R137). -/
def field (v mask : Byte) (shift : Nat) : Nat := (v &&& mask).toNat >>> shift

/-- R132: `clamp(sext_32(a), SF_MIN, SF_MAX)`. -/
def clampSf (c : Config) (v : Int) : Nat := clampTo v c.sfMin c.sfMax

/-- R134: `clamp(sext_32(a), BW_MIN, BW_MAX)`. -/
def clampBw (c : Config) (v : Int) : Nat := clampTo v c.bwMin c.bwMax

/-- R136: `clamp(sext_32(a), CR_MIN, CR_MAX)`. -/
def clampCr (c : Config) (v : Int) : Nat := clampTo v c.crMin c.crMax

/-- R144: `clamp(sext_32(a), PWR_MIN, PWR_MAX)`. -/
def clampPwr (c : Config) (v : Int) : Nat := clampTo v c.pwrMin c.pwrMax

/-- R146: `clamp(sext_32(a), 0, DIO_MODE_MAX)`. -/
def clampDioMode (c : Config) (v : Int) : Nat := clampTo v 0 c.dioModeMax

/-- R130: `floor((f * 2^19 + 16000000) / 32000000)`, that is `round(f * 2^19 / 32000000)`, exact. -/
def frfExact (c : Config) (f : Nat) : Nat := (f * 2 ^ c.frfNumShift + c.fxoscHz / 2) / c.fxoscHz

/-- R130, D15: the register value of `FRF_BITS` bits (R6: 24); higher bits are discarded. -/
def frf (c : Config) (f : BitVec 32) : BitVec c.frfBits := BitVec.ofNat c.frfBits (frfExact c f.toNat)

/-- R34, R130: `frf[23:16]`. -/
def frfMsb {n : Nat} (v : BitVec n) : Byte := v.extractLsb' 16 8

/-- R34, R130: `frf[15:8]`. -/
def frfMid {n : Nat} (v : BitVec n) : Byte := v.extractLsb' 8 8

/-- R34, R130: `frf[7:0]`. -/
def frfLsb {n : Nat} (v : BitVec n) : Byte := v.extractLsb' 0 8

/-- R131: `{m, i, l}`, zero-extended to 32 bits. -/
def joinFrf (m i l : Byte) : Word := (m ++ i ++ l : BitVec 24).setWidth 32

/-- R46, R138: `n[15:8]`. -/
def high8 (n : BitVec 16) : Byte := n.extractLsb' 8 8

/-- R46, R138: `n[7:0]`. -/
def lower8 (n : BitVec 16) : Byte := n.extractLsb' 0 8

/-- R139: `{m, l}`, zero-extended to 32 bits. -/
def joinPreamble (m l : Byte) : Word := (m ++ l : BitVec 16).setWidth 32

/-- R144: the whole power register, `PA_BOOST | (lvl - PWR_BIAS)`. -/
def paConfigByte (c : Config) (lvl : Nat) : Byte := c.paBoost ||| BitVec.ofNat 8 (lvl - c.pwrBias)

/-- R51, R146: the register of a DIO pin. -/
def dioAddr (c : Config) (pin : Byte) : Addr :=
  if pin.toNat < c.dioPinsInReg1 then c.addrDioMapping1 else c.addrDioMapping2

/-- R146: `DIO_SHIFT[pin]`. -/
def dioShiftOf (c : Config) (pin : Byte) : Nat := c.dioShift.getD pin.toNat 0

/-- R202: the offset "164 below 868 MHz, 157 at or above", chosen by `st.frequency_hz`. -/
def rssiOffset (c : Config) (f : BitVec 32) : Nat :=
  if f.toNat < c.rssiBandHz then c.rssiOffsetLow else c.rssiOffsetHigh

/-- R202: `raw - off`, exact, as 32-bit two's complement. -/
def rssiData (raw : Byte) (off : Nat) : Word := BitVec.ofInt 32 ((raw.toNat : Int) - (off : Int))

/-- R203: `sext_8(raw)`, quarter decibels, as 32-bit two's complement; "the hardware … does no division". -/
def snrData (raw : Byte) : Word := raw.signExtend 32

/-- R203: what an SNR result says in decibels, "a fixed-point number with `SNR_FRAC_BITS` = 2 fractional bits". -/
def snrDecibels (c : Config) (d : Word) : Rat := (d.toInt : Rat) / 2 ^ c.snrFracBits

/-- R190: `min(len, cap)`. -/
def copyCount (len : Byte) (cap : BitVec 32) : Nat := min len.toNat cap.toNat

end Sys2Proof.Machine
end

