-- ==== Sys2Proof/Machine/ConfigCmds.lean ====
section
/-! DEFINITION. The 18 configuration commands (40_config R130 to R149). A failing transaction ends the command at once with the status
of its kind (R148): that is `regRead` and `regWrite`. -/

namespace Sys2Proof.Machine

/-- R130. `st.frequency_hz` is written before any transaction, at acceptance (D15). -/
def progSetFrequency (c : Config) (f : BitVec 32) : Prog :=
  .update (.setFrequency f) <|
  regWrite c.addrFrfMsb (frfMsb (frf c f)) <|
  regWrite c.addrFrfMid (frfMid (frf c f)) <|
  regWrite c.addrFrfLsb (frfLsb (frf c f)) <|
  .respond .ok 0

/-- R131: the 24-bit register value, read MSB, MID, LSB. -/
def progGetFrequency (c : Config) : Prog :=
  regRead c.addrFrfMsb fun m =>
  regRead c.addrFrfMid fun i =>
  regRead c.addrFrfLsb fun l =>
  .respond .ok (joinFrf m i l)

/-- R132: both branches write both detection registers, optimize first (D11). -/
def progSetSpreadingFactor (c : Config) (v : Int) : Prog :=
  let sf := clampSf c v
  let rest := rmw c.addrModemConfig2 c.mc2SfMask (placed sf c.mc2SfShift) (.respond .ok 0)
  if sf = c.sfMin then
    regWrite c.addrDetectOptimize c.detectOptSf6 <| regWrite c.addrDetectThreshold c.detectThrSf6 rest
  else
    regWrite c.addrDetectOptimize c.detectOptNormal <| regWrite c.addrDetectThreshold c.detectThrNormal rest

/-- R133: the raw field, neither clamped nor checked. -/
def progGetSpreadingFactor (c : Config) : Prog :=
  regRead c.addrModemConfig2 fun v =>
  .respond .ok (BitVec.ofNat 32 (field v c.mc2SfMask c.mc2SfShift))

/-- R134 (C1: the setter clamps). -/
def progSetBandwidth (c : Config) (v : Int) : Prog :=
  rmw c.addrModemConfig1 c.mc1BwMask (placed (clampBw c v) c.mc1BwShift) (.respond .ok 0)

/-- R135 (C1: the getter fails on a field above `BW_MAX`). -/
def progGetBandwidth (c : Config) : Prog :=
  regRead c.addrModemConfig1 fun v =>
  if field v c.mc1BwMask c.mc1BwShift > c.bwMax then raise .failure
  else .respond .ok (BitVec.ofNat 32 (field v c.mc1BwMask c.mc1BwShift))

/-- R136. -/
def progSetCodingRate (c : Config) (v : Int) : Prog :=
  rmw c.addrModemConfig1 c.mc1CrMask (placed (clampCr c v - c.crBias) c.mc1CrShift) (.respond .ok 0)

/-- R137. -/
def progGetCodingRate (c : Config) : Prog :=
  regRead c.addrModemConfig1 fun v =>
  .respond .ok (BitVec.ofNat 32 (field v c.mc1CrMask c.mc1CrShift + c.crBias))

/-- R138: most significant byte first, no clamp (D13). -/
def progSetPreambleLength (c : Config) (n : BitVec 16) : Prog :=
  regWrite c.addrPreambleMsb (high8 n) <|
  regWrite c.addrPreambleLsb (lower8 n) <|
  .respond .ok 0

/-- R139. -/
def progGetPreambleLength (c : Config) : Prog :=
  regRead c.addrPreambleMsb fun m =>
  regRead c.addrPreambleLsb fun l =>
  .respond .ok (joinPreamble m l)

/-- R140: one direct write. -/
def progSetSyncWord (c : Config) (word : Byte) : Prog := regWrite c.addrSyncWord word (.respond .ok 0)

/-- R141. -/
def progGetSyncWord (c : Config) : Prog := regRead c.addrSyncWord fun v => .respond .ok (v.setWidth 32)

/-- R142. -/
def progSetCrc (c : Config) (enable : Bool) : Prog :=
  rmw c.addrModemConfig2 c.mc2CrcOn (if enable then c.mc2CrcOn else 0x00) (.respond .ok 0)

/-- R143. -/
def progGetCrc (c : Config) : Prog := regRead c.addrModemConfig2 fun v => .respond .ok (crcEnabledData c v)

/-- R144: one direct write of the whole register (D12). -/
def progSetTxPower (c : Config) (v : Int) : Prog :=
  regWrite c.addrPaConfig (paConfigByte c (clampPwr c v)) (.respond .ok 0)

/-- R145. -/
def progGetTxPower (c : Config) : Prog :=
  regRead c.addrPaConfig fun v =>
  .respond .ok (BitVec.ofNat 32 ((v &&& c.pwrFieldMask).toNat + c.pwrBias))

/-- R146: the pin is checked before any transaction (D14). -/
def progSetDioMapping (c : Config) (pin : Byte) (mode : Int) : Prog :=
  if pin.toNat ≥ c.dioPinCount then raise .failure
  else
    rmw (dioAddr c pin) (placed 0x03 (dioShiftOf c pin)) (placed (clampDioMode c mode) (dioShiftOf c pin))
      (.respond .ok 0)

/-- R147. -/
def progGetDioMapping (c : Config) (pin : Byte) : Prog :=
  if pin.toNat ≥ c.dioPinCount then raise .failure
  else
    regRead (dioAddr c pin) fun v =>
    .respond .ok (BitVec.ofNat 32 ((v.toNat >>> dioShiftOf c pin) &&& 0x03))

/-- `SET_FREQUENCY`, R130. -/
def execSetFrequency (f : BitVec 32) (s : State) : Host.Outcome State Fault Refusal := command (progSetFrequency s.config f) s

/-- `GET_FREQUENCY`, R131. -/
def execGetFrequency (s : State) : Host.Outcome State Fault Refusal := command (progGetFrequency s.config) s

/-- `SET_SPREADING_FACTOR`, R132. -/
def execSetSpreadingFactor (v : Int) (s : State) : Host.Outcome State Fault Refusal :=
  command (progSetSpreadingFactor s.config v) s

/-- `GET_SPREADING_FACTOR`, R133. -/
def execGetSpreadingFactor (s : State) : Host.Outcome State Fault Refusal := command (progGetSpreadingFactor s.config) s

/-- `SET_BANDWIDTH`, R134. -/
def execSetBandwidth (v : Int) (s : State) : Host.Outcome State Fault Refusal := command (progSetBandwidth s.config v) s

/-- `GET_BANDWIDTH`, R135. -/
def execGetBandwidth (s : State) : Host.Outcome State Fault Refusal := command (progGetBandwidth s.config) s

/-- `SET_CODING_RATE`, R136. -/
def execSetCodingRate (v : Int) (s : State) : Host.Outcome State Fault Refusal := command (progSetCodingRate s.config v) s

/-- `GET_CODING_RATE`, R137. -/
def execGetCodingRate (s : State) : Host.Outcome State Fault Refusal := command (progGetCodingRate s.config) s

/-- `SET_PREAMBLE_LENGTH`, R138. -/
def execSetPreambleLength (n : BitVec 16) (s : State) : Host.Outcome State Fault Refusal :=
  command (progSetPreambleLength s.config n) s

/-- `GET_PREAMBLE_LENGTH`, R139. -/
def execGetPreambleLength (s : State) : Host.Outcome State Fault Refusal := command (progGetPreambleLength s.config) s

/-- `SET_SYNC_WORD`, R140. -/
def execSetSyncWord (word : Byte) (s : State) : Host.Outcome State Fault Refusal := command (progSetSyncWord s.config word) s

/-- `GET_SYNC_WORD`, R141. -/
def execGetSyncWord (s : State) : Host.Outcome State Fault Refusal := command (progGetSyncWord s.config) s

/-- `SET_CRC`, R142. -/
def execSetCrc (enable : Bool) (s : State) : Host.Outcome State Fault Refusal := command (progSetCrc s.config enable) s

/-- `GET_CRC`, R143. -/
def execGetCrc (s : State) : Host.Outcome State Fault Refusal := command (progGetCrc s.config) s

/-- `SET_TX_POWER`, R144. -/
def execSetTxPower (v : Int) (s : State) : Host.Outcome State Fault Refusal := command (progSetTxPower s.config v) s

/-- `GET_TX_POWER`, R145. -/
def execGetTxPower (s : State) : Host.Outcome State Fault Refusal := command (progGetTxPower s.config) s

/-- `SET_DIO_MAPPING`, R146. -/
def execSetDioMapping (pin : Byte) (mode : Int) (s : State) : Host.Outcome State Fault Refusal :=
  command (progSetDioMapping s.config pin mode) s

/-- `GET_DIO_MAPPING`, R147. -/
def execGetDioMapping (pin : Byte) (s : State) : Host.Outcome State Fault Refusal := command (progGetDioMapping s.config pin) s

end Sys2Proof.Machine
end

