-- ==== Sys2Proof/Machine/Diagnostics.lean ====
section
/-! DEFINITION. The five diagnostics commands (44_diagnostics R200 to R204). -/

namespace Sys2Proof.Machine

/-- R200: one read, no write-back. -/
def progGetIrqFlags (c : Config) : Prog := regRead c.addrIrqFlags fun v => .respond .ok (v.setWidth 32)

/-- R201: no transaction. -/
def progPacketLostCount : Prog := .ask fun radio => .respond .ok radio.lostPacketCount

/-- R202: the offset follows `st.frequency_hz`, "the last frequency commanded". -/
def progPacketRssi (c : Config) : Prog :=
  regRead c.addrPktRssi fun raw =>
  .ask fun radio =>
  .respond .ok (rssiData raw (rssiOffset c radio.frequencyHz))

/-- R203. -/
def progPacketSnr (c : Config) : Prog := regRead c.addrPktSnr fun raw => .respond .ok (snrData raw)

/-- R204: the loop from address `i` on, `n` addresses left; a failed read ends it with the number of entries written. -/
def progDumpFrom (c : Config) : Nat → Nat → Prog
  | _, 0 => .respond .ok (BitVec.ofNat 32 c.dumpCount)
  | i, n + 1 =>
    regReadElse (raiseWith .regReadFailed (BitVec.ofNat 32 i)) (BitVec.ofNat addrBits i) fun v =>
    .update (.storeDump i v) <|
    progDumpFrom c (i + 1) n

/-- R204: "64 single reads, addresses 0 to 63 ascending" (D26). -/
def progDumpRegisters (c : Config) : Prog := progDumpFrom c 0 c.dumpCount

/-- `GET_IRQ_FLAGS`, R200. -/
def execGetIrqFlags (s : State) : Host.Outcome State Fault Refusal := command (progGetIrqFlags s.config) s

/-- `PACKET_LOST_COUNT`, R201. -/
def execPacketLostCount (s : State) : Host.Outcome State Fault Refusal := command progPacketLostCount s

/-- `PACKET_RSSI`, R202. -/
def execPacketRssi (s : State) : Host.Outcome State Fault Refusal := command (progPacketRssi s.config) s

/-- `PACKET_SNR`, R203. -/
def execPacketSnr (s : State) : Host.Outcome State Fault Refusal := command (progPacketSnr s.config) s

/-- `DUMP_REGISTERS`, R204. -/
def execDumpRegisters (s : State) : Host.Outcome State Fault Refusal := command (progDumpRegisters s.config) s

end Sys2Proof.Machine
end

