-- ==== Sys2Proof/Machine/Lifecycle.lean ====
section
/-! DEFINITION. `DRIVER_INIT` and `CLOSE` (45_init_close R210 to R214), and the answer to an illegal opcode (30_encoding R105).
Transaction indices of `DRIVER_INIT` (`seq.step`): 0 bus, 1 version read, 2 delay, 3 to 9 the tail. -/

namespace Sys2Proof.Machine

/-- R212: the configuration tail, seven transactions; receive base before transmit base (D27). -/
def progInitTail (c : Config) : Prog :=
  .update (.goto 3) <|
  setMode c .sleep <|
  regWrite c.addrFifoRxBase 0x00 <|
  regWrite c.addrFifoTxBase 0x00 <|
  rmw c.addrLna c.lnaBoostMask c.lnaBoostMask <|
  regWrite c.addrModemConfig3 c.mc3AgcAuto <|
  setMode c .standby <|
  .respond .ok 0

/-- R211: the version poll loop, `n` iterations left; a failed read ends the command, the delay follows every mismatch (D27). -/
def progPollVersion (c : Config) : Nat → Prog
  | 0 => raise .initTimeout
  | n + 1 =>
    .update (.goto 1) <|
    .update .nextIteration <|
    regRead c.addrVersion fun v =>
    if v = c.versionId then progInitTail c
    else delay c.retryDelayMs (progPollVersion c n)

/-- R210. -/
def progDriverInit (c : Config) : Prog := busInit (progPollVersion c c.retryBudget)

/-- R214: "forces Sleep; does not release transport resources". -/
def progClose (c : Config) : Prog := setMode c .sleep (.respond .ok 0)

/-- `DRIVER_INIT`, R210. -/
def execDriverInit (s : State) : Host.Outcome State Fault Refusal := command (progDriverInit s.config) s

/-- `CLOSE`, R214. -/
def execClose (s : State) : Host.Outcome State Fault Refusal := command (progClose s.config) s

/-- R105: an illegal command "is accepted, issues no transaction, changes no state, and is answered `respond(FAILURE, 0)`". -/
def progIllegal : Prog := raise .failure

/-- A word that decodes to no command (R105). -/
def execIllegal (s : State) : Host.Outcome State Fault Refusal := command progIllegal s

end Sys2Proof.Machine
end

