-- ==== Sys2Proof/Machine/ModeCmds.lean ====
section
/-! DEFINITION. The four mode commands and the two header-mode commands (41_mode R170 to R178). -/

namespace Sys2Proof.Machine

/-- A bare mode command: `SetMode(M); respond(OK, 0)` (R171 to R174). -/
def progMode (c : Config) (m : Mode) : Prog := setMode c m (.respond .ok 0)

/-- R175: `st.payload_size` is left as it is (D16). -/
def progSetExplicitHeader (c : Config) : Prog :=
  rmw c.addrModemConfig1 c.mc1ImplicitHeader 0x00 <|
  .update (.setHeader .explicit) <|
  .respond .ok 0

/-- R176: the bit first, then the length; RadioState only after all three accesses. -/
def progSetImplicitHeader (c : Config) (size : Byte) : Prog :=
  rmw c.addrModemConfig1 c.mc1ImplicitHeader c.mc1ImplicitHeader <|
  regWrite c.addrPayloadLength size <|
  .update (.setHeader .implicit) <|
  .update (.setPayloadSize size) <|
  .respond .ok 0

/-- `MODE_SLEEP`, R171. -/
def execModeSleep (s : State) : Host.Outcome State Fault Refusal := command (progMode s.config .sleep) s

/-- `MODE_STANDBY`, R172. -/
def execModeStandby (s : State) : Host.Outcome State Fault Refusal := command (progMode s.config .standby) s

/-- `MODE_RECEIVE`, R173. -/
def execModeReceive (s : State) : Host.Outcome State Fault Refusal := command (progMode s.config .receive) s

/-- `MODE_TRANSMIT`, R174. -/
def execModeTransmit (s : State) : Host.Outcome State Fault Refusal := command (progMode s.config .transmit) s

/-- `SET_EXPLICIT_HEADER`, R175. -/
def execSetExplicitHeader (s : State) : Host.Outcome State Fault Refusal := command (progSetExplicitHeader s.config) s

/-- `SET_IMPLICIT_HEADER`, R176. -/
def execSetImplicitHeader (size : Byte) (s : State) : Host.Outcome State Fault Refusal :=
  command (progSetImplicitHeader s.config size) s

end Sys2Proof.Machine
end

