-- ==== Sys2Proof/Machine/PacketRx.lean ====
section
/-! DEFINITION. `RECEIVE_PACKET` and `POLL_RECEIVED` (43_packet_rx R190 to R193). -/

namespace Sys2Proof.Machine

/-- R190 step 3: the length register, chosen by `st.header_mode`. -/
def lengthRegister (c : Config) (h : HeaderMode) : Addr :=
  match h with
  | .implicit => c.addrPayloadLength
  | .explicit => c.addrRxNbBytes

/-- R190: the flags are written back before they are tested, receive-done first, then CRC-error (R191). -/
def progReceivePacket (c : Config) (cap : BitVec 32) : Prog :=
  regRead c.addrIrqFlags fun v =>
  regWrite c.addrIrqFlags v <|
  if !rxDone c v then raise .noData
  else if crcErrorFlag c v then raise .crcError
  else
    .ask fun radio =>
    regRead (lengthRegister c radio.headerMode) fun len =>
    setMode c .standby <|
    regRead c.addrFifoRxCurrent fun p =>
    regWrite c.addrFifoAddrPtr p <|
    burstRead c.addrFifo (copyCount len cap) 7 <|
    .respond .ok (BitVec.ofNat 32 (copyCount len cap))

/-- R192: one read; only a CRC error seen together with receive-done is reported and cleared. A failed clear still reports the flags
(D24). -/
def progPollReceived (c : Config) : Prog :=
  regRead c.addrIrqFlags fun v =>
  if pollCrcError c v then
    regWriteElse (raiseWith .regWriteFailed (pollData c v)) c.addrIrqFlags c.irqCrcError (.respond .ok (pollData c v))
  else .respond .ok (pollData c v)

/-- `RECEIVE_PACKET`, R190. -/
def execReceivePacket (cap : BitVec 32) (s : State) : Host.Outcome State Fault Refusal :=
  command (progReceivePacket s.config cap) s

/-- `POLL_RECEIVED`, R192. -/
def execPollReceived (s : State) : Host.Outcome State Fault Refusal := command (progPollReceived s.config) s

end Sys2Proof.Machine
end

