-- ==== Sys2Proof/Machine/PacketTx.lean ====
section
/-! DEFINITION. `SEND_PACKET` (42_packet_tx R180 to R185). Transaction indices (`seq.step`): 0 to 4 arm, 5 poll read, 6 delay, 7 and 8 clean up. -/

namespace Sys2Proof.Machine

/-- R184: what a cleanup write's answer does to `pending`. -/
def cleanupWrite (a : Addr) (v : Byte) (onOk : Prog → Prog) (k : Prog) : Prog :=
  .issue (.write a v) fun r =>
    match r with
    | .ok _ => onOk k
    | .fail => .update .cleanupFailed k

/-- R184: cleanup and final status. Both writes are always issued, "step 7 even if step 6 failed". -/
def progCleanup (c : Config) : Prog :=
  .update (.goto 7) <|
  cleanupWrite c.addrOpMode (modeByte c .sleep) (.update (.setMode .sleep)) <|
  cleanupWrite c.addrIrqFlags c.irqTxDone id <|
  .respondPending

/-- R182, R183: the poll loop, `n` iterations left. Its three exits: transmit-done, a failed read, the cap. -/
def progPollTxDone (c : Config) : Nat → Prog
  | 0 => .update .countLost (progCleanup c)
  | n + 1 =>
    .update (.goto 5) <|
    .update .nextIteration <|
    regReadElse (.update (.setPending .regReadFailed) (progCleanup c)) c.addrIrqFlags fun v =>
    if txDone c v then .update (.setPending .ok) (progCleanup c)
    else delay c.pollDelayMs (progPollTxDone c n)

/-- R180: the arming phase, then the poll loop. R181: a failure in steps 1 to 5 ends the command with `FAILURE`, without the poll
loop and without the cleanup. -/
def progSendPacket (c : Config) (len : Byte) : Prog :=
  let abort := raise .failure
  setModeElse abort c .standby <|
  regWriteElse abort c.addrFifoAddrPtr 0x00 <|
  burstWriteElse abort c.addrFifo len.toNat 3 <|
  regWriteElse abort c.addrPayloadLength len <|
  setModeElse abort c .transmit <|
  .update (.setPending .sendTimeout) <|
  progPollTxDone c c.pollCap

/-- `SEND_PACKET`, R180. -/
def execSendPacket (len : Byte) (s : State) : Host.Outcome State Fault Refusal := command (progSendPacket s.config len) s

end Sys2Proof.Machine
end

