-- ==== Sys2Proof/Machine/Dispatch.lean ====
section
/-! DEFINITION. One arm per command of the opcode table, each a direct call of its meaning. -/

namespace Sys2Proof.Machine

def exec (i : Instr) (s : State) : Host.Outcome State Fault Refusal :=
  match i with
  | .driverInit => Sys2Proof.Machine.execDriverInit s
  | .close => Sys2Proof.Machine.execClose s
  | .setFrequency hz => Sys2Proof.Machine.execSetFrequency hz s
  | .setSpreadingFactor sf => Sys2Proof.Machine.execSetSpreadingFactor sf s
  | .setBandwidth index => Sys2Proof.Machine.execSetBandwidth index s
  | .setCodingRate denominator => Sys2Proof.Machine.execSetCodingRate denominator s
  | .setPreambleLength length => Sys2Proof.Machine.execSetPreambleLength length s
  | .setSyncWord word => Sys2Proof.Machine.execSetSyncWord word s
  | .setCrc enable => Sys2Proof.Machine.execSetCrc enable s
  | .setTxPower level => Sys2Proof.Machine.execSetTxPower level s
  | .setDioMapping pin mode => Sys2Proof.Machine.execSetDioMapping pin mode s
  | .getFrequency => Sys2Proof.Machine.execGetFrequency s
  | .getSpreadingFactor => Sys2Proof.Machine.execGetSpreadingFactor s
  | .getBandwidth => Sys2Proof.Machine.execGetBandwidth s
  | .getCodingRate => Sys2Proof.Machine.execGetCodingRate s
  | .getPreambleLength => Sys2Proof.Machine.execGetPreambleLength s
  | .getSyncWord => Sys2Proof.Machine.execGetSyncWord s
  | .getCrc => Sys2Proof.Machine.execGetCrc s
  | .getTxPower => Sys2Proof.Machine.execGetTxPower s
  | .getDioMapping pin => Sys2Proof.Machine.execGetDioMapping pin s
  | .modeSleep => Sys2Proof.Machine.execModeSleep s
  | .modeStandby => Sys2Proof.Machine.execModeStandby s
  | .modeReceive => Sys2Proof.Machine.execModeReceive s
  | .modeTransmit => Sys2Proof.Machine.execModeTransmit s
  | .setExplicitHeader => Sys2Proof.Machine.execSetExplicitHeader s
  | .setImplicitHeader size => Sys2Proof.Machine.execSetImplicitHeader size s
  | .sendPacket len => Sys2Proof.Machine.execSendPacket len s
  | .receivePacket capacity => Sys2Proof.Machine.execReceivePacket capacity s
  | .pollReceived => Sys2Proof.Machine.execPollReceived s
  | .getIrqFlags => Sys2Proof.Machine.execGetIrqFlags s
  | .packetLostCount => Sys2Proof.Machine.execPacketLostCount s
  | .packetRssi => Sys2Proof.Machine.execPacketRssi s
  | .packetSnr => Sys2Proof.Machine.execPacketSnr s
  | .dumpRegisters => Sys2Proof.Machine.execDumpRegisters s

end Sys2Proof.Machine
end

