-- ==== Sys2Proof/Machine/Sequencer.lean ====
section
/-! DEFINITION. The sequencer at the spec's own grain (00_scope R5, 10_state R26, R27): acceptance, one transaction at a time, delivery of
the response. `tick` is the "step of the RCE" of R5; `step` (Machine/Step.lean) runs a whole command. -/

namespace Sys2Proof.Machine

/-- The pseudocode of each command. -/
def program (c : Config) : Instr → Prog
  | .driverInit => progDriverInit c
  | .close => progClose c
  | .setFrequency hz => progSetFrequency c hz
  | .setSpreadingFactor sf => progSetSpreadingFactor c sf
  | .setBandwidth index => progSetBandwidth c index
  | .setCodingRate denominator => progSetCodingRate c denominator
  | .setPreambleLength length => progSetPreambleLength c length
  | .setSyncWord word => progSetSyncWord c word
  | .setCrc enable => progSetCrc c enable
  | .setTxPower level => progSetTxPower c level
  | .setDioMapping pin mode => progSetDioMapping c pin mode
  | .getFrequency => progGetFrequency c
  | .getSpreadingFactor => progGetSpreadingFactor c
  | .getBandwidth => progGetBandwidth c
  | .getCodingRate => progGetCodingRate c
  | .getPreambleLength => progGetPreambleLength c
  | .getSyncWord => progGetSyncWord c
  | .getCrc => progGetCrc c
  | .getTxPower => progGetTxPower c
  | .getDioMapping pin => progGetDioMapping c pin
  | .modeSleep => progMode c .sleep
  | .modeStandby => progMode c .standby
  | .modeReceive => progMode c .receive
  | .modeTransmit => progMode c .transmit
  | .setExplicitHeader => progSetExplicitHeader c
  | .setImplicitHeader size => progSetImplicitHeader c size
  | .sendPacket len => progSendPacket c len
  | .receivePacket capacity => progReceivePacket c capacity
  | .pollReceived => progPollReceived c
  | .getIrqFlags => progGetIrqFlags c
  | .packetLostCount => progPacketLostCount
  | .packetRssi => progPacketRssi c
  | .packetSnr => progPacketSnr c
  | .dumpRegisters => progDumpRegisters c

/-- The pseudocode a command word stands for, an illegal word included (R105). -/
def wordProgram (c : Config) (w : Cmd48) : Prog :=
  match decode w with
  | .ok i => program c i
  | .error _ => progIllegal

/-- What is left of a command, at its next transaction or its response, after the answers it has had: "the remaining continuation of
the command's pseudocode" (R26). The updates on the way were made when they were reached; RadioState is followed from acceptance. -/
def Prog.remaining : Prog → Radio → List Answer → Prog
  | .respond st d, _, _ => .respond st d
  | .respondPending, _, _ => .respondPending
  | .issue op k, _, [] => .issue op k
  | .issue _ k, r, a :: as => (k a).remaining r as
  | .update u p, r, as => p.remaining (u.onRadio r) as
  | .ask k, r, as => (k r).remaining r as

/-- Make the updates that stand before a command's next transaction or response; they belong to the step that led there (R5: "Between
two steps nothing of the RCE changes"). -/
def Prog.settle : Prog → State → State
  | .respond _ _, s => s
  | .respondPending, s => s
  | .issue _ _, s => s
  | .update u p, s => p.settle (s.apply u)
  | .ask k, s => (k s.radio).settle s

/-- What is left of the command in flight. -/
def State.remaining (s : State) : Prog := (wordProgram s.config s.seq.cmd).remaining s.seq.entry s.seq.answers

/-- The acceptance of a command word as a step of the RCE (R5, R26, R27). -/
def State.acceptStep (s : State) (w : Cmd48) : State := (wordProgram s.config w).settle (s.accept w)

/-- One step of a busy RCE (R5): the issue and completion of one transaction, or the delivery of the response. An idle RCE takes none. -/
def State.tick (s : State) : State :=
  if s.seq.busy then
    match s.remaining with
    | .respond st d => s.deliver st d
    | .respondPending => s.deliver s.seq.pending 0
    | .issue op k => (k (s.reply op)).settle (s.transact op)
    | .update _ _ => s
    | .ask _ => s
  else s

/-- `n` steps of the RCE. -/
def State.ticks : Nat → State → State
  | 0, s => s
  | n + 1, s => State.ticks n s.tick

/-- Run the command in flight to its response: "exactly one response follows every accepted command" (R27). -/
def State.finish (s : State) : State := s.remaining.run s

/-- Hardware reset while a command is in flight (R251): it strikes after `n` further steps, the command is dropped "without a response"
and "no cleanup is run". -/
def State.interruptedCommand (s : State) (w : Cmd48) (n : Nat) : State := (State.ticks n (s.acceptStep w)).hardReset

/-- Accept a command word and run what it says (R27, R105). -/
def runWord (w : Cmd48) (s : State) : Host.Outcome State Fault Refusal :=
  match decode w with
  | .ok i => exec i (s.accept w)
  | .error _ => execIllegal (s.accept w)

/-- The host's next move (R27, R28, R250, R251). With none the RCE "waits for a command" (R250; log 13). -/
def hostMove (s : State) : Host.Outcome State Fault Refusal :=
  match s.inputs with
  | [] => .next s
  | .command w :: _ => runWord w s.popInput
  | .loadTx data :: _ => .next (s.popInput.loadTx data)
  | .reset :: _ => .next s.popInput.hardReset
  | .interrupted w n :: _ => .next (s.popInput.interruptedCommand w n)

/-- What the RCE does next: finish a command in flight, for no other is accepted while `busy = 1` (R27), or take the host's next move. -/
def advance (s : State) : Host.Outcome State Fault Refusal := if s.seq.busy then .next s.finish else hostMove s

/-- The host presents the word as its next move to an idle RCE (log 6). -/
def State.present (s : State) (w : Cmd48) : State := { s with inputs := .command w :: s.inputs, seq := Seq.idle }

end Sys2Proof.Machine
end

