-- ==== Sys2Proof/Machine/Step.lean ====
section
/-! DEFINITION. One step of the machine: one move of the host, a command run from acceptance to response. -/

namespace Sys2Proof.Machine

/-- One step. A parameter table that breaks R7's constraints is refused ("the rules are not meant for it", U9). -/
def step (s : State) : Host.Outcome State Fault Refusal :=
  if s.config.wf then advance s else .refused .badParameters

/-- The instruction whose bits are `w`, presented at the command port of an idle RCE, so that the next step accepts and runs it. -/
def State.withFetchWord (s : State) (nbits w : Nat) : State := s.present (tableWord nbits w)

end Sys2Proof.Machine
end

