-- ==== Sys2Proof/Machine/Chip.lean ====
section
/-! DEFINITION. A plain chip as a NAMED PREMISE of claims, "never as part of the RCE" (20_memory R78): a register file that returns what was
last written (95_test_vectors, "plain register file"), an interrupt-flags register cleared by writing ones (R84), and a FIFO behind a
cursor register that advances by one per byte (R83; PRESUMED, G2; log 12). No step of the RCE uses this file. -/

namespace Sys2Proof.Machine

/-- A plain chip: its registers by address and its FIFO bytes by position. Two things are the premise's own (DESIGN CHOICE, log 12). It
keeps both in every mode, Sleep included, and serves the FIFO in every mode: whether a chip does "is not in the source" (R234, N11). Its
FIFO holds 256 bytes, one for every value of the 8-bit cursor: R55 gives 256 as a bound only, and the size "is not in the source" (N10). -/
structure Chip where
  regs : Memory
  fifo : Memory
  deriving DecidableEq, Repr

/-- The FIFO cursor: the register `FIFO_ADDR_PTR` (R37, R55). -/
def Chip.cursor (c : Config) (x : Chip) : Byte := Memory.read x.regs c.addrFifoAddrPtr.toNat

/-- R83: "the chip then advances `FIFO_ADDR_PTR` by one" (8 bits, R37). -/
def Chip.advanceCursor (c : Config) (x : Chip) : Chip :=
  { x with regs := Memory.write x.regs c.addrFifoAddrPtr.toNat (Chip.cursor c x + 1) }

/-- One byte written to a register. A byte written to `FIFO` is stored at whatever position the cursor holds, 0 to 255, so that a payload
of 255 bytes fits (DESIGN CHOICE, log 12; R55 and N10 leave the FIFO's size open). A write of `OP_MODE` changes that register alone: the
write of Sleep loses neither register nor FIFO byte (DESIGN CHOICE, log 12; R234 and N11 leave it open). -/
def Chip.storeByte (c : Config) (x : Chip) (a : Addr) (v : Byte) : Chip :=
  if a = c.addrFifo then
    Chip.advanceCursor c { x with fifo := Memory.write x.fifo (Chip.cursor c x).toNat v }
  else if a = c.addrIrqFlags then
    { x with regs := Memory.write x.regs a.toNat (Memory.read x.regs a.toNat &&& ~~~v) }
  else { x with regs := Memory.write x.regs a.toNat v }

/-- The byte read from a register; `FIFO` has a byte at every position 0 to 255 (DESIGN CHOICE, log 12; N10). -/
def Chip.loadByte (c : Config) (x : Chip) (a : Addr) : Byte :=
  if a = c.addrFifo then Memory.read x.fifo (Chip.cursor c x).toNat else Memory.read x.regs a.toNat

/-- The chip after one byte was read: only the FIFO notices (R83, R84). -/
def Chip.afterLoad (c : Config) (x : Chip) (a : Addr) : Chip := if a = c.addrFifo then Chip.advanceCursor c x else x

/-- Bytes written to one register, in order (R73). -/
def Chip.storeBytes (c : Config) (a : Addr) : Chip → List Byte → Chip
  | x, [] => x
  | x, v :: rest => Chip.storeBytes c a (Chip.storeByte c x a v) rest

/-- `n` bytes read from one register, in order, and the chip after it (R74). -/
def Chip.loadBytes (c : Config) (a : Addr) : Chip → Nat → List Byte × Chip
  | x, 0 => ([], x)
  | x, n + 1 =>
    ((Chip.loadByte c x a) :: (Chip.loadBytes c a (Chip.afterLoad c x a) n).1, (Chip.loadBytes c a (Chip.afterLoad c x a) n).2)

/-- How the plain chip serves a transaction: the data it returns, and the chip after it. It never fails. -/
def Chip.serve (c : Config) (x : Chip) : Txn → List Byte × Chip
  | .busInit => ([], x)
  | .write a v => ([], Chip.storeByte c x a v)
  | .read a => ([Chip.loadByte c x a], Chip.afterLoad c x a)
  | .burstWrite a bytes => ([], Chip.storeBytes c a x bytes)
  | .burstRead a n => Chip.loadBytes c a x n
  | .delay _ => ([], x)

/-- The chip after a list of transactions, if every one was answered as the plain chip answers it. -/
def Chip.follow (c : Config) : Chip → List Entry → Option Chip
  | x, [] => some x
  | x, e :: rest =>
    if e.answer = .ok (Chip.serve c x e.txn).1 then Chip.follow c (Chip.serve c x e.txn).2 rest else none

end Sys2Proof.Machine
end

