-- ==== Sys2Proof/Safety.lean ====
section
/-! DEFINITION. The terms in which claims speak of a run: what a command left behind, what counts as a good state, the status table. -/

namespace Sys2Proof.Machine

/-! ## What a command leaves behind -/

/-- The answers the environment gives if these operations are issued in order (R78). -/
def Env.replies (e : Env) : List Op → List Answer
  | [] => []
  | op :: ops => e.reply op :: Env.replies (e.next op) ops

/-- The environment after these operations. -/
def Env.after (e : Env) : List Op → Env
  | [] => e
  | op :: ops => Env.after (e.next op) ops

/-- The trace these operations make, with the answers they get (R79). -/
def State.entriesOf (s : State) (ops : List Op) : List Entry :=
  List.zipWith (fun op a => { txn := op.onPort s.txbuf, answer := a }) ops (s.env.replies ops)

/-- The state a command leaves that issued exactly these operations and responded `(st, d)`, everything else as it was. -/
def State.completed (s : State) (ops : List Op) (st : Status) (d : Word) : State :=
  { s with
    trace := s.trace ++ s.entriesOf ops
    env := s.env.after ops
    responses := s.responses ++ [{ status := st, data := d }]
    seq := Seq.idle }

/-- The same with `st.operating_mode` changed. -/
def State.withMode (s : State) (m : Mode) : State := { s with radio := { s.radio with operatingMode := m } }

/-- The transactions that `t` has beyond those of `s` (R79). -/
def newEntries (s t : State) : List Entry := t.trace.drop s.trace.length

/-- The state a meaning ends in, where it ends in one. -/
def outcomeState : Host.Outcome State Fault Refusal → Option State
  | .next t => some t
  | .fault _ => none
  | .refused _ => none

/-! ## Good states -/

/-- Every index listed is below `n`. -/
def Memory.below (n : Nat) (m : Memory) : Bool := m.all fun cell => decide (cell.1 < n)

/-- A good state between two commands: parameters that meet R7's constraints, host buffers in canonical form and inside the arrays of
R28 (`txbuf[0 .. 254]`, at most 255 bytes received, `dumpbuf[0 .. DUMP_COUNT-1]`), the sequencer idle. -/
def State.inv (s : State) : Bool :=
  s.config.wf && decide (s.seq = Seq.idle)
    && (Memory.wf s.txbuf && Memory.below 255 s.txbuf)
    && (Memory.wf s.rxbuf && Memory.below 255 s.rxbuf)
    && (Memory.wf s.dumpbuf && Memory.below s.config.dumpCount s.dumpbuf)

/-! ## Reading a trace -/

/-- The register a transaction addresses, if it addresses one (R70 to R76). -/
def Txn.address : Txn → Option Addr
  | .busInit => none
  | .write a _ => some a
  | .read a => some a
  | .burstWrite a _ => some a
  | .burstRead a _ => some a
  | .delay _ => none

/-- Whether a transaction is a single write to the register `a`. -/
def Txn.writesTo (a : Addr) : Txn → Bool
  | .write b _ => decide (b = a)
  | _ => false

/-- Whether a transaction is a delay. -/
def Txn.isDelay : Txn → Bool
  | .delay _ => true
  | _ => false

/-- The transport status of a failed transaction of its kind (R70 to R74, R223); a delay cannot fail (R76). -/
def Txn.failureStatus : Txn → Option Status
  | .busInit => some .busInitFailed
  | .write _ _ => some .regWriteFailed
  | .read _ => some .regReadFailed
  | .burstWrite _ _ => some .bufWriteFailed
  | .burstRead _ _ => some .bufReadFailed
  | .delay _ => none

/-- The mode a mode byte stands for (R33, R170). -/
def modeOfByte (c : Config) (v : Byte) : Option Mode :=
  [Mode.sleep, Mode.standby, Mode.receive, Mode.transmit].find? fun m => modeByte c m == v

/-- R178: the declared mode after one more transaction; only a successful write to `OP_MODE` changes it. -/
def modeAfterEntry (c : Config) (m : Mode) (e : Entry) : Mode :=
  match e.txn, e.answer with
  | .write a v, .ok _ => if a = c.addrOpMode then (modeOfByte c v).getD m else m
  | _, _ => m

/-- R178: "the mode of the last successful `SetMode`" of a trace, from the mode before it. -/
def modeAfter (c : Config) (m : Mode) (es : List Entry) : Mode := es.foldl (modeAfterEntry c) m

/-! ## The status table -/

/-- 60_exceptions R223: "Which command can end with which status", other than `OK`. -/
def mayReturn : Instr → List Status
  | .driverInit => [.busInitFailed, .regReadFailed, .initTimeout, .regWriteFailed]
  | .close => [.regWriteFailed]
  | .modeSleep => [.regWriteFailed]
  | .modeStandby => [.regWriteFailed]
  | .modeReceive => [.regWriteFailed]
  | .modeTransmit => [.regWriteFailed]
  | .setFrequency _ => [.regWriteFailed]
  | .setPreambleLength _ => [.regWriteFailed]
  | .setSyncWord _ => [.regWriteFailed]
  | .setTxPower _ => [.regWriteFailed]
  | .setSpreadingFactor _ => [.regReadFailed, .regWriteFailed]
  | .setBandwidth _ => [.regReadFailed, .regWriteFailed]
  | .setCodingRate _ => [.regReadFailed, .regWriteFailed]
  | .setCrc _ => [.regReadFailed, .regWriteFailed]
  | .setExplicitHeader => [.regReadFailed, .regWriteFailed]
  | .setImplicitHeader _ => [.regReadFailed, .regWriteFailed]
  | .setDioMapping _ _ => [.failure, .regReadFailed, .regWriteFailed]
  | .getFrequency => [.regReadFailed]
  | .getSpreadingFactor => [.regReadFailed]
  | .getCodingRate => [.regReadFailed]
  | .getPreambleLength => [.regReadFailed]
  | .getSyncWord => [.regReadFailed]
  | .getCrc => [.regReadFailed]
  | .getTxPower => [.regReadFailed]
  | .getIrqFlags => [.regReadFailed]
  | .packetRssi => [.regReadFailed]
  | .packetSnr => [.regReadFailed]
  | .dumpRegisters => [.regReadFailed]
  | .getBandwidth => [.regReadFailed, .failure]
  | .getDioMapping _ => [.failure, .regReadFailed]
  | .sendPacket _ => [.failure, .sendTimeout, .regReadFailed, .regWriteFailed]
  | .receivePacket _ => [.regReadFailed, .regWriteFailed, .noData, .crcError, .bufReadFailed]
  | .pollReceived => [.regReadFailed, .regWriteFailed]
  | .packetLostCount => []

/-! ## The loops and the burst, as lists of operations -/

/-- `k` reads of the interrupt flags, each followed by a delay (R182). -/
def pollRounds (c : Config) : Nat → List Op
  | 0 => []
  | k + 1 => .read c.addrIrqFlags :: .delay c.pollDelayMs :: pollRounds c k

/-- `k` reads of the version register, each followed by a delay (R211). -/
def versionRounds (c : Config) : Nat → List Op
  | 0 => []
  | k + 1 => .read c.addrVersion :: .delay c.retryDelayMs :: versionRounds c k

/-- Steps 1 to 5 of `SEND_PACKET` (R180), the burst only for a payload that is not empty (R75). -/
def armOps (c : Config) (len : Byte) : List Op :=
  [.write c.addrOpMode (modeByte c .standby), .write c.addrFifoAddrPtr 0x00]
    ++ (if len = 0 then [] else [.burstWrite c.addrFifo len.toNat])
    ++ [.write c.addrPayloadLength len, .write c.addrOpMode (modeByte c .transmit)]

/-- Steps 6 and 7 of `SEND_PACKET` (R184). -/
def cleanupOps (c : Config) : List Op := [.write c.addrOpMode (modeByte c .sleep), .write c.addrIrqFlags c.irqTxDone]

/-- The seven transactions of `DRIVER_INIT`'s tail (R212), where the `LNA` register reads `lna`. -/
def tailOps (c : Config) (lna : Byte) : List Op :=
  [.write c.addrOpMode (modeByte c .sleep), .write c.addrFifoRxBase 0x00, .write c.addrFifoTxBase 0x00, .read c.addrLna,
   .write c.addrLna (lna ||| c.lnaBoostMask), .write c.addrModemConfig3 c.mc3AgcAuto, .write c.addrOpMode (modeByte c .standby)]

/-- `RMW(addr, mask, val)` (R10), where the register reads `old`. -/
def rmwOps (a : Addr) (old mask val : Byte) : List Op := [.read a, .write a (rmwByte old mask val)]

/-- The reads of a register dump, addresses 0 to `n - 1` (R204). -/
def dumpOps (n : Nat) : List Op := (List.range n).map fun i => .read (BitVec.ofNat addrBits i)

/-! ## Shapes of commands, for claims about several of them -/

/-- A command that issues single writes in order (R148): all answered `ok`, it responds `(OK, 0)`; at the first `fail` it stops there with
`REG_WRITE_FAILED`. `s0` is the state with the updates made at acceptance. -/
def WritesInOrder (i : Instr) (s s0 : State) (ops : List Op) : Prop :=
  (s.env.replies ops = ops.map (fun _ => .ok []) → exec i s = .next (s0.completed ops .ok 0)) ∧
    ∀ k, k < ops.length → s.env.replies (ops.take (k + 1)) = List.replicate k (.ok []) ++ [.fail] →
      exec i s = .next (s0.completed (ops.take (k + 1)) .regWriteFailed 0)

/-- A command that is one read-modify-write (R10, R148). -/
def ReadsModifiesWrites (i : Instr) (s : State) (a : Addr) (mask val : Byte) : Prop :=
  (∀ old, s.env.replies (rmwOps a old mask val) = [.ok [old], .ok []] →
      exec i s = .next (s.completed (rmwOps a old mask val) .ok 0)) ∧
    (s.env.replies [.read a] = [.fail] → exec i s = .next (s.completed [.read a] .regReadFailed 0)) ∧
    ∀ old, s.env.replies (rmwOps a old mask val) = [.ok [old], .fail] →
      exec i s = .next (s.completed (rmwOps a old mask val) .regWriteFailed 0)

/-- A command that is one read and answers with a function of the byte read (R148). -/
def ReadsOne (i : Instr) (s : State) (a : Addr) (result : Byte → Word) : Prop :=
  (∀ v, s.env.replies [.read a] = [.ok [v]] → exec i s = .next (s.completed [.read a] .ok (result v))) ∧
    (s.env.replies [.read a] = [.fail] → exec i s = .next (s.completed [.read a] .regReadFailed 0))

/-- A command that is one mode write (R170 to R174): the declared mode changes only if the write answered `ok`. -/
def WritesMode (i : Instr) (s : State) (m : Mode) (v : Byte) : Prop :=
  (s.env.replies [.write s.config.addrOpMode v] = [.ok []] →
      exec i s = .next ((s.withMode m).completed [.write s.config.addrOpMode v] .ok 0)) ∧
    (s.env.replies [.write s.config.addrOpMode v] = [.fail] →
      exec i s = .next (s.completed [.write s.config.addrOpMode v] .regWriteFailed 0))

/-- The answers of poll rounds in which these bytes were read: each read `ok`, each delay completed. -/
def roundAnswers (vs : List Byte) : List Answer := vs.flatMap fun v => [.ok [v], .ok []]

/-- Every operation answered `ok`, none of them carrying data. -/
def allOk (ops : List Op) : List Answer := ops.map fun _ => .ok []

/-- R105: the opcodes that are not in the table, by their ranges. -/
def isIllegalOpcode (op : Nat) : Bool :=
  op == 0x00 || (decide (0x03 ≤ op) && decide (op ≤ 0x0F)) || (decide (0x19 ≤ op) && decide (op ≤ 0x1F))
    || (decide (0x29 ≤ op) && decide (op ≤ 0x2F)) || (decide (0x36 ≤ op) && decide (op ≤ 0x3F))
    || (decide (0x43 ≤ op) && decide (op ≤ 0x4F)) || (decide (0x55 ≤ op) && decide (op ≤ 0xFF))

end Sys2Proof.Machine
end

