-- ==== Sys2Proof/Certificates/Slice0/Obligations.lean ====
section
/-! DEFINITION. The statements for the provers. R<n>, D<n>, U<n> are ids of spec/; "log <n>" is notes/assumptions/<n>.md. -/

open Sys2Proof Sys2Proof.Machine

/-! ## The command port and the command word -/

/-- R26, R27: an idle RCE accepts the word the host presents, latches it (`busy <- 1`, `cmd <- word`, `step <- 0`, `iter <- 0`) and runs the
command it decodes to. `step` adds around `exec` only the acceptance; that one step runs the whole command is the model's (log 1). -/
def Obligations.StepRunsDecodedCommand : Prop :=
  ∀ (s : State) (w : Cmd48) (rest : List Input) (i : Instr), s.config.wf = true → s.seq.busy = false →
    s.inputs = .command w :: rest → decode w = .ok i →
    step s = exec i
      { s with
        inputs := rest
        seq := { busy := true, cmd := w, step := 0, iter := 0, pending := .ok, entry := s.radio, answers := [] } }

/-- R105: an opcode outside the table is accepted, issues no transaction, changes no state, and is answered `respond(FAILURE, 0)`. The
answer is the spec's own decision D6. -/
def Obligations.IllegalOpcodeAnswersFailure : Prop :=
  ∀ (s : State) (w : Cmd48) (rest : List Input), s.config.wf = true → s.seq.busy = false →
    s.inputs = .command w :: rest → isIllegalOpcode w.op.toNat = true →
    decode w = .error (.illegalOpcode w.op) ∧
      step s = .next { s with inputs := rest, responses := s.responses ++ [{ status := .failure, data := 0 }], seq := Seq.idle }

/-- Words written out from R100 to R102 decode to the commands they stand for. Format and opcode numbers are the spec's own decisions D2,
D3. -/
def Obligations.SpecWordsDecode : Prop :=
  decode 0x100033BCA100 = .ok (.setFrequency 868000000) ∧ decode 0x110080000000 = .ok (.setSpreadingFactor (-2147483648)) ∧
    decode 0x18FF00000003 = .ok (.setDioMapping 0xFF 3) ∧ decode 0x400000000003 = .ok (.sendPacket 3) ∧
    decode 0x3500000001FF = .ok (.setImplicitHeader 0xFF) ∧ decode 0x0355DEADBEEF = .error (.illegalOpcode 0x03)

/-- Decoding an encoded well-formed command gives it back, with every operand. Format and opcode numbers: the spec's decisions D2, D3. -/
def Obligations.DecodeEncodeRoundTrip : Prop := ∀ i : Instr, i.wf = true → decode (encode i) = .ok i

/-- R101, R106: a word decodes as it does with its ignored bits cleared, and an assembler emits them as 0. The spec's decision D7. -/
def Obligations.IgnoredBitsHaveNoEffect : Prop :=
  (∀ w : Cmd48, decode w = decode (w &&& usedBits w.op.toNat)) ∧
    ∀ i : Instr, encode i &&& ~~~(usedBits i.opcode.toNat) = 0

/-- R102, R105, R101, R106: a word decodes exactly if its opcode is not one of R105's illegal opcodes; the command decoded is well formed,
and encoding it gives the word back with its ignored bits cleared. The spec's decisions D3, D6, D7. -/
def Obligations.DecodesExactlyTheTable : Prop :=
  (∀ w : Cmd48, (∃ i, decode w = .ok i) ↔ isIllegalOpcode w.op.toNat = false) ∧
    ∀ (w : Cmd48) (i : Instr), decode w = .ok i → i.wf = true ∧ encode i = w &&& usedBits w.op.toNat

/-! ## Reset, waiting, and the shape of a run -/

/-- R61, R250: the registers of State.reset have the values the spec gives, and no transaction and no response stands in it. The five values
are the spec's decision D29; empty logs are the model's choice (log 3). -/
def Obligations.ResetRegisterValues : Prop :=
  State.reset.radio = { headerMode := .explicit, payloadSize := 0, frequencyHz := 0, lostPacketCount := 0, operatingMode := .sleep } ∧
    State.reset.seq.busy = false ∧ State.reset.trace = [] ∧ State.reset.responses = []

/-- R250, R61: hardware reset sets the five registers and the busy bit, issues no transaction and delivers no response. The values are the
spec's decision D29. That it leaves the host's buffers and remaining moves, the environment and the parameters as they are is the model's
choice: the spec does not say it (log 26). -/
def Obligations.HardwareResetSetsRegistersOnly : Prop :=
  ∀ (s : State) (rest : List Input), s.config.wf = true → s.seq.busy = false → s.inputs = .reset :: rest →
    ∃ t, step s = .next t ∧
      t.radio = { headerMode := .explicit, payloadSize := 0, frequencyHz := 0, lostPacketCount := 0, operatingMode := .sleep } ∧
      t.seq.busy = false ∧ t.trace = s.trace ∧ t.responses = s.responses ∧ t.env = s.env ∧ t.config = s.config ∧
      t.inputs = rest ∧ (∀ a, Memory.read t.txbuf a = Memory.read s.txbuf a) ∧
      (∀ a, Memory.read t.rxbuf a = Memory.read s.rxbuf a) ∧ ∀ a, Memory.read t.dumpbuf a = Memory.read s.dumpbuf a

/-- R251: a reset in mid-command drops the command: after `n` further steps its trace stops short at `n` transactions, it has responded only
if it was already over, no cleanup is run, and the registers have their reset values. The spec lets a model omit the event; log 18. The
spec's decision D33. -/
def Obligations.ResetMidCommandDropsIt : Prop :=
  ∀ (s : State) (w : Cmd48) (n : Nat) (rest : List Input) (i : Instr) (t : State), s.config.wf = true → s.seq.busy = false →
    s.inputs = .interrupted w n :: rest → decode w = .ok i → exec i ({ s with inputs := rest }.accept w) = .next t →
    ∃ u, step s = .next u ∧ u.radio = Radio.reset ∧ u.seq = Seq.idle ∧ u.trace = s.trace ++ (newEntries s t).take n ∧
      u.responses = if n ≤ (newEntries s t).length then s.responses else t.responses

/-- R250, R28: with nothing presented the RCE waits, and loading `txbuf` changes the bytes loaded and nothing else. That a waiting RCE
answers the same state (log 13) and that the host loads `txbuf` as a move between two commands (log 5) are the model's choices. -/
def Obligations.IdleRceWaitsAndTakesPayload : Prop :=
  ∀ s : State, s.config.wf = true → s.seq.busy = false →
    (s.inputs = [] → step s = .next s) ∧
      ∀ (data : List Byte) (rest : List Input), s.inputs = .loadTx data :: rest → data.length ≤ 255 → Memory.wf s.txbuf = true →
        ∃ t, step s = .next t ∧ t = { s with inputs := rest, txbuf := t.txbuf } ∧
          ∀ j, Memory.read t.txbuf j = if j < data.length then data.getD j 0 else Memory.read s.txbuf j

/-- R27, R29: while a command is in flight no other is accepted; the step ends with exactly one response and an idle RCE. That one step
finishes the command in flight is the model's choice (logs 1, 23). -/
def Obligations.BusyRceAcceptsNothing : Prop :=
  ∀ s : State, s.config.wf = true → s.seq.busy = true →
    ∃ t r, step s = .next t ∧ t.inputs = s.inputs ∧ t.responses = s.responses ++ [r] ∧ t.seq.busy = false

/-- R220, R222: nothing stops the RCE; whatever the host and the environment do, there is a next state. U9: only a parameter table that
breaks R7's constraints is refused. The refusal is the model's choice (log 11). -/
def Obligations.StepStopsOnlyOnBadParameters : Prop :=
  ∀ s : State, (s.config.wf = true → ∃ t, step s = .next t) ∧ (s.config.wf = false → step s = .refused .badParameters)

/-- The state after reset meets the invariant. The idle sequencer's cleared fields and the empty buffers are the model's choices (logs 4,
7). -/
def Obligations.ResetMeetsInvariant : Prop := State.reset.inv = true

/-- From every good state a step leads to a good state: the parameters keep R7's constraints, the sequencer is idle, every host buffer is
canonical and lies inside its array (R28: `txbuf[0 .. 254]`, `rxbuf` below 255, `dumpbuf[0 .. DUMP_COUNT-1]`). The invariant is the model's
reading (logs 4, 7, 11). -/
def Obligations.StepKeepsInvariant : Prop := ∀ s t : State, s.inv = true → step s = .next t → t.inv = true

/-! ## The sequencer at the grain of R5 -/

/-- R5: a step of a busy RCE is the issue-and-completion of one transport transaction, or the delivery of the response. The spec's decision
D1; the continuation is kept as log 15 says. -/
def Obligations.TickIsOneTransactionOrResponse : Prop :=
  ∀ s : State, s.seq.busy = true →
    (∃ e, s.tick.trace = s.trace ++ [e] ∧ s.tick.responses = s.responses ∧ s.tick.seq.busy = true) ∨
      (∃ r, s.tick.trace = s.trace ∧ s.tick.responses = s.responses ++ [r] ∧ s.tick.seq.busy = false ∧ s.tick.radio = s.radio)

/-- A command run as a whole is its sequence of transactions, one step each, and the delivery of the response (R5, R26, R87): the steps from
acceptance reach exactly the state `exec` gives. The spec's decision D1; that `step` runs a whole command is the model's choice (log 1). -/
def Obligations.TicksRunTheWholeCommand : Prop :=
  ∀ (s : State) (w : Cmd48) (i : Instr), decode w = .ok i →
    ∃ t, exec i (s.accept w) = .next t ∧ State.ticks ((newEntries s t).length + 1) (s.acceptStep w) = t

/-- R26, R130, D15: acceptance is a step without a transaction; of RadioState only `SET_FREQUENCY` writes a register there. The spec's
decisions D1, D15; updates belong to the step that led there (log 22). -/
def Obligations.AcceptanceIssuesNoTransaction : Prop :=
  ∀ (s : State) (w : Cmd48),
    (s.acceptStep w).trace = s.trace ∧ (s.acceptStep w).responses = s.responses ∧ (s.acceptStep w).env = s.env ∧
      (s.acceptStep w).seq.busy = true ∧ (s.acceptStep w).seq.cmd = w ∧
      (s.acceptStep w).radio =
        match decode w with
        | .ok (.setFrequency f) => { s.radio with frequencyHz := f }
        | _ => s.radio

/-! ## Rules about all commands -/

/-- R29: every command ends with exactly one response, and after it `busy = 0`. Every command completes from every state. -/
def Obligations.EveryCommandRespondsOnce : Prop :=
  ∀ (i : Instr) (s : State), ∃ t r, exec i s = .next t ∧ t.responses = s.responses ++ [r] ∧ t.seq.busy = false

/-- What every command leaves unchanged: parameters, host moves, every byte of `txbuf` (R28), the trace so far (R79), every byte of `rxbuf`
but for `RECEIVE_PACKET`, every byte of `dumpbuf` but for `DUMP_REGISTERS`. The spec's decision D34 for `txbuf`. -/
def Obligations.CommandFrame : Prop :=
  ∀ (i : Instr) (s t : State), exec i s = .next t →
    t.config = s.config ∧ t.inputs = s.inputs ∧ (∀ a, Memory.read t.txbuf a = Memory.read s.txbuf a) ∧
      (∃ es, t.trace = s.trace ++ es) ∧
      ((∀ cap, i ≠ .receivePacket cap) → ∀ a, Memory.read t.rxbuf a = Memory.read s.rxbuf a) ∧
      (i ≠ .dumpRegisters → ∀ a, Memory.read t.dumpbuf a = Memory.read s.dumpbuf a)

/-- R21 to R24, R177, R213: which commands write which RadioState register; every other command leaves it unchanged. The spec's decision
D16. -/
def Obligations.RadioStateWriters : Prop :=
  ∀ (i : Instr) (s t : State), exec i s = .next t →
    ((i ≠ .setExplicitHeader ∧ ∀ n, i ≠ .setImplicitHeader n) → t.radio.headerMode = s.radio.headerMode) ∧
      ((∀ n, i ≠ .setImplicitHeader n) → t.radio.payloadSize = s.radio.payloadSize) ∧
      ((∀ f, i ≠ .setFrequency f) → t.radio.frequencyHz = s.radio.frequencyHz) ∧
      ((∀ n, i ≠ .sendPacket n) → t.radio.lostPacketCount = s.radio.lostPacketCount) ∧
      ((i ≠ .modeSleep ∧ i ≠ .modeStandby ∧ i ≠ .modeReceive ∧ i ≠ .modeTransmit ∧ i ≠ .driverInit ∧ i ≠ .close ∧
          (∀ n, i ≠ .sendPacket n) ∧ ∀ n, i ≠ .receivePacket n) → t.radio.operatingMode = s.radio.operatingMode)

/-- R183, R23: the lost-packet count is incremented by one, saturating at 2^32 - 1, exactly when a command responds `SEND_TIMEOUT`; it never
decreases. Width and saturation: the spec's decision D30. -/
def Obligations.LostCountCountsTimeouts : Prop :=
  ∀ (i : Instr) (s t : State) (r : Response), exec i s = .next t → t.responses = s.responses ++ [r] →
    (r.status = .sendTimeout → t.radio.lostPacketCount.toNat = min (s.radio.lostPacketCount.toNat + 1) (2 ^ 32 - 1)) ∧
      (r.status ≠ .sendTimeout → t.radio.lostPacketCount = s.radio.lostPacketCount) ∧
      s.radio.lostPacketCount.toNat ≤ t.radio.lostPacketCount.toNat

/-- R178, R24: `st.operating_mode` is "the mode of the last successful `SetMode`" and nothing more: it follows from the command's trace.
Premise: the four mode bytes differ. The spec's decision D16; the premise is the model's (R7 does not ask it). -/
def Obligations.DeclaredModeFollowsTrace : Prop :=
  ∀ (i : Instr) (s t : State), s.config.wf = true → Function.Injective (modeByte s.config) → exec i s = .next t →
    t.radio.operatingMode = modeAfter s.config s.radio.operatingMode (newEntries s t)

/-- R31: the RCE addresses only the 27 named registers, and in `DUMP_REGISTERS` the addresses 0 to `DUMP_COUNT - 1`. The addresses are
parameters (R7, D9; log 9). -/
def Obligations.OnlyNamedRegistersAddressed : Prop :=
  ∀ (i : Instr) (s t : State), exec i s = .next t → ∀ e ∈ newEntries s t, ∀ a, e.txn.address = some a →
    if i = .dumpRegisters then ∃ n, n < s.config.dumpCount ∧ a = BitVec.ofNat 8 n else a ∈ s.config.namedAddresses

/-- R226: the interrupt flags are written in exactly three places: `SEND_PACKET` writes `IRQ_TX_DONE`, `POLL_RECEIVED` writes
`IRQ_CRC_ERROR`, `RECEIVE_PACKET` writes back the value it has just read. -/
def Obligations.IrqFlagsWrittenInThreePlaces : Prop :=
  ∀ (i : Instr) (s t : State) (v : Byte) (ans : Answer), s.config.wf = true → exec i s = .next t →
    { txn := .write s.config.addrIrqFlags v, answer := ans } ∈ newEntries s t →
    ((∃ n, i = .sendPacket n) ∧ v = s.config.irqTxDone) ∨ (i = .pollReceived ∧ v = s.config.irqCrcError) ∨
      ((∃ n, i = .receivePacket n) ∧ (newEntries s t).head? = some { txn := .read s.config.addrIrqFlags, answer := .ok [v] })

/-- R223, R220: a command ends with `OK` or with one of the statuses the table gives it; `BUF_WRITE_FAILED` is never returned. The spec's
decision D17. -/
def Obligations.StatusesFollowTheTable : Prop :=
  ∀ (i : Instr) (s t : State) (r : Response), exec i s = .next t → t.responses = s.responses ++ [r] →
    (r.status = .ok ∨ r.status ∈ mayReturn i) ∧ r.status ≠ .bufWriteFailed

/-- R103, R104: the response word carries the status in `[39:32]`, at most 0x0A, and the data in `[31:0]`; with a failure status the data is
0, but for `DUMP_REGISTERS` and `POLL_RECEIVED`. The spec's decisions D4, D5. -/
def Obligations.FailureResponsesCarryNoData : Prop :=
  ∀ (i : Instr) (s t : State) (r : Response), exec i s = .next t → t.responses = s.responses ++ [r] →
    r.word.extractLsb' 32 8 = r.status.code ∧ r.word.extractLsb' 0 32 = r.data ∧ r.status.code.toNat ≤ 0x0A ∧
      (r.status ≠ .ok → i ≠ .dumpRegisters → i ≠ .pollReceived → r.data = 0)

/-- R148: a transaction that answers `fail` is the last of its command, nothing is retried, and the status is "the corresponding transport
failure status"; in every command but `SEND_PACKET`. Outside the configuration commands that is the spec's decision D17. -/
def Obligations.FailedTransactionEndsCommand : Prop :=
  ∀ (i : Instr) (s t : State) (r : Response) (pre post : List Entry) (e : Entry), (∀ n, i ≠ .sendPacket n) → exec i s = .next t →
    t.responses = s.responses ++ [r] → newEntries s t = pre ++ e :: post → e.answer = .fail →
    post = [] ∧ e.txn.failureStatus = some r.status

/-- R271, R255, R76: the most transactions a command issues. Delays are issued by `SEND_PACKET` and `DRIVER_INIT` alone. The spec marks R271
as derived; the bound 7 for the other commands is read from their rules. -/
def Obligations.TransactionBounds : Prop :=
  ∀ (i : Instr) (s t : State), exec i s = .next t →
    (newEntries s t).length ≤
        (match i with
          | .sendPacket _ => 5 + 2 * s.config.pollCap + 2
          | .driverInit => 1 + 2 * s.config.retryBudget + 7
          | .dumpRegisters => s.config.dumpCount
          | _ => 7) ∧
      (i ≠ .driverInit → (∀ n, i ≠ .sendPacket n) → ∀ e ∈ newEntries s t, e.txn.isDelay = false)

/-! ## Configuration commands -/

/-- R130, R34, R80: `SET_FREQUENCY` writes `st.frequency_hz` whether or not the writes succeed, then the three bytes of `floor((f * 2^19 +
16000000) / 32000000)`, cut to `FRF_BITS` bits, most significant first, and stops at the first failing write. The spec's decision D15. -/
def Obligations.SetFrequencyWritesTriplet : Prop :=
  ∀ (f : BitVec 32) (s : State),
    WritesInOrder (.setFrequency f) s { s with radio := { s.radio with frequencyHz := f } }
      [.write s.config.addrFrfMsb
          (BitVec.ofNat 8
            ((f.toNat * 2 ^ s.config.frfNumShift + s.config.fxoscHz / 2) / s.config.fxoscHz % 2 ^ s.config.frfBits / 65536)),
        .write s.config.addrFrfMid
          (BitVec.ofNat 8
            ((f.toNat * 2 ^ s.config.frfNumShift + s.config.fxoscHz / 2) / s.config.fxoscHz % 2 ^ s.config.frfBits / 256)),
        .write s.config.addrFrfLsb
          (BitVec.ofNat 8
            ((f.toNat * 2 ^ s.config.frfNumShift + s.config.fxoscHz / 2) / s.config.fxoscHz % 2 ^ s.config.frfBits))]

/-- R130 (3), R149 (2): with the default parameters the three bytes, joined big-endian, are `round(f * 2^19 / 32000000)` exactly when `f <=
1023999969`, and its low 24 bits for every `f`. Discarding the higher bits is the spec's decision D15. -/
def Obligations.FrequencyBytesReconstruct : Prop :=
  ∀ f : BitVec 32,
    (joinFrf (frfMsb (frf Config.default f)) (frfMid (frf Config.default f)) (frfLsb (frf Config.default f))).toNat =
        (f.toNat * 2 ^ 19 + 16000000) / 32000000 % 2 ^ 24 ∧
      (f.toNat ≤ 1023999969 ↔ (f.toNat * 2 ^ 19 + 16000000) / 32000000 < 2 ^ 24)

/-- R138, R140, R144: `SET_PREAMBLE_LENGTH`, `SET_SYNC_WORD` and `SET_TX_POWER` write whole registers and read none. The spec's decisions
D12, D13. -/
def Obligations.WholeRegisterSetters : Prop :=
  ∀ s : State, s.config.wf = true →
    (∀ n : BitVec 16, WritesInOrder (.setPreambleLength n) s s
        [.write s.config.addrPreambleMsb (BitVec.ofNat 8 (n.toNat / 256)), .write s.config.addrPreambleLsb (BitVec.ofNat 8 n.toNat)]) ∧
      (∀ w : Byte, WritesInOrder (.setSyncWord w) s s [.write s.config.addrSyncWord w]) ∧
      ∀ v : Int, WritesInOrder (.setTxPower v) s s
        [.write s.config.addrPaConfig
          (s.config.paBoost ||| BitVec.ofNat 8 ((max (s.config.pwrMin : Int) (min v s.config.pwrMax)).toNat - s.config.pwrBias))]

/-- R132: `SET_SPREADING_FACTOR` clamps, writes the alternate detection constants for the least factor and the normal ones otherwise, then
updates the field; it stops at the first failing access. The spec's decision D11. -/
def Obligations.SetSpreadingFactorSequence : Prop :=
  ∀ (v : Int) (s : State) (sf : Nat) (opt thr old : Byte), s.config.wf = true →
    sf = (max (s.config.sfMin : Int) (min v s.config.sfMax)).toNat →
    opt = (if sf = s.config.sfMin then s.config.detectOptSf6 else s.config.detectOptNormal) →
    thr = (if sf = s.config.sfMin then s.config.detectThrSf6 else s.config.detectThrNormal) →
    ∀ ops : List Op, ops = [.write s.config.addrDetectOptimize opt, .write s.config.addrDetectThreshold thr] ++
        rmwOps s.config.addrModemConfig2 old s.config.mc2SfMask (BitVec.ofNat 8 (sf <<< s.config.mc2SfShift)) →
    (s.env.replies ops = [.ok [], .ok [], .ok [old], .ok []] →
        exec (.setSpreadingFactor v) s = .next (s.completed ops .ok 0)) ∧
      (s.env.replies (ops.take 1) = [.fail] →
        exec (.setSpreadingFactor v) s = .next (s.completed (ops.take 1) .regWriteFailed 0)) ∧
      (s.env.replies (ops.take 2) = [.ok [], .fail] →
        exec (.setSpreadingFactor v) s = .next (s.completed (ops.take 2) .regWriteFailed 0)) ∧
      (s.env.replies (ops.take 3) = [.ok [], .ok [], .fail] →
        exec (.setSpreadingFactor v) s = .next (s.completed (ops.take 3) .regReadFailed 0)) ∧
      (s.env.replies ops = [.ok [], .ok [], .ok [old], .fail] →
        exec (.setSpreadingFactor v) s = .next (s.completed ops .regWriteFailed 0))

/-- R134, R136: `SET_BANDWIDTH` writes the clamped index and `SET_CODING_RATE` writes `clamp(d, 5, 8) - 4`, each into its own window of the
shared register, by one read-modify-write. -/
def Obligations.SharedRegisterSettersReadModifyWrite : Prop :=
  ∀ (v : Int) (s : State), s.config.wf = true →
    ReadsModifiesWrites (.setBandwidth v) s s.config.addrModemConfig1 s.config.mc1BwMask
        (BitVec.ofNat 8 ((max (s.config.bwMin : Int) (min v s.config.bwMax)).toNat <<< s.config.mc1BwShift)) ∧
      ReadsModifiesWrites (.setCodingRate v) s s.config.addrModemConfig1 s.config.mc1CrMask
        (BitVec.ofNat 8 (((max (s.config.crMin : Int) (min v s.config.crMax)).toNat - s.config.crBias) <<< s.config.mc1CrShift))

/-- R142, R146: `SET_CRC` and, for a pin below `DIO_PIN_COUNT`, `SET_DIO_MAPPING` are one read-modify-write. The
spec's decisions D9, D14. -/
def Obligations.CrcAndDioSettersReadModifyWrite : Prop :=
  ∀ s : State, s.config.wf = true →
    (∀ e : Bool, ReadsModifiesWrites (.setCrc e) s s.config.addrModemConfig2 s.config.mc2CrcOn
        (if e then s.config.mc2CrcOn else 0)) ∧
      ∀ (pin : Byte) (v : Int), pin.toNat < s.config.dioPinCount →
        ReadsModifiesWrites (.setDioMapping pin v) s
          (if pin.toNat < s.config.dioPinsInReg1 then s.config.addrDioMapping1 else s.config.addrDioMapping2)
          (BitVec.ofNat 8 (0x03 <<< s.config.dioShift.getD pin.toNat 0))
          (BitVec.ofNat 8 ((max (0 : Int) (min v s.config.dioModeMax)).toNat <<< s.config.dioShift.getD pin.toNat 0))

/-- R10, R62 (a), R146: the byte a read-modify-write writes equals the byte read outside the mask, and the value inside it; so "mapping pins
within the same register do not disturb each other's two-bit fields". -/
def Obligations.ReadModifyWritePreservesUnrelatedBits : Prop :=
  (∀ (old mask val : Byte) (k : Nat),
      (rmwByte old mask val).getLsbD k = if mask.getLsbD k then val.getLsbD k else old.getLsbD k) ∧
    ∀ (c : Config) (p q : Nat) (old : Byte) (m : Nat), c.wf = true → p < c.dioPinCount → q < c.dioPinCount → p ≠ q →
      (p < c.dioPinsInReg1 ↔ q < c.dioPinsInReg1) →
      rmwByte old (placed 0x03 (c.dioShift.getD p 0)) (placed m (c.dioShift.getD p 0)) &&& placed 0x03 (c.dioShift.getD q 0) =
        old &&& placed 0x03 (c.dioShift.getD q 0)

/-- R146, R147: a pin of `DIO_PIN_COUNT` or more fails both DIO commands before any transaction, and changes nothing. The spec's decision
D14. -/
def Obligations.InvalidDioPinFails : Prop :=
  ∀ (s : State) (pin : Byte) (v : Int), s.config.dioPinCount ≤ pin.toNat →
    exec (.setDioMapping pin v) s = .next (s.completed [] .failure 0) ∧ exec (.getDioMapping pin) s = .next (s.completed [] .failure 0)

/-- R133, R137, R141, R143, R145, R147, R200: the getters that are one read and extract a field. The spec's decision D10. -/
def Obligations.FieldGettersExtract : Prop :=
  ∀ s : State,
    ReadsOne .getSpreadingFactor s s.config.addrModemConfig2
        (fun v => BitVec.ofNat 32 ((v &&& s.config.mc2SfMask).toNat / 2 ^ s.config.mc2SfShift)) ∧
      ReadsOne .getCodingRate s s.config.addrModemConfig1
        (fun v => BitVec.ofNat 32 ((v &&& s.config.mc1CrMask).toNat / 2 ^ s.config.mc1CrShift + s.config.crBias)) ∧
      ReadsOne .getSyncWord s s.config.addrSyncWord (fun v => BitVec.ofNat 32 v.toNat) ∧
      ReadsOne .getCrc s s.config.addrModemConfig2 (fun v => if v &&& s.config.mc2CrcOn = 0 then 0 else 1) ∧
      ReadsOne .getTxPower s s.config.addrPaConfig
        (fun v => BitVec.ofNat 32 ((v &&& s.config.pwrFieldMask).toNat + s.config.pwrBias)) ∧
      (∀ pin : Byte, pin.toNat < s.config.dioPinCount →
        ReadsOne (.getDioMapping pin) s
          (if pin.toNat < s.config.dioPinsInReg1 then s.config.addrDioMapping1 else s.config.addrDioMapping2)
          (fun v => BitVec.ofNat 32 (v.toNat / 2 ^ s.config.dioShift.getD pin.toNat 0 % 4))) ∧
      ReadsOne .getIrqFlags s s.config.addrIrqFlags (fun v => BitVec.ofNat 32 v.toNat)

/-- R135: `GET_BANDWIDTH` answers the index, or `FAILURE` for a field above `BW_MAX`; a failed read wins over the range check (R224). The
spec's decision D10 (C1). -/
def Obligations.GetBandwidthChecksRange : Prop :=
  ∀ s : State,
    (∀ v : Byte, s.env.replies [.read s.config.addrModemConfig1] = [.ok [v]] →
        exec .getBandwidth s = .next
          (if (v &&& s.config.mc1BwMask).toNat / 2 ^ s.config.mc1BwShift ≤ s.config.bwMax then
            s.completed [.read s.config.addrModemConfig1] .ok
              (BitVec.ofNat 32 ((v &&& s.config.mc1BwMask).toNat / 2 ^ s.config.mc1BwShift))
          else s.completed [.read s.config.addrModemConfig1] .failure 0)) ∧
      (s.env.replies [.read s.config.addrModemConfig1] = [.fail] →
        exec .getBandwidth s = .next (s.completed [.read s.config.addrModemConfig1] .regReadFailed 0))

/-- R131, R139: `GET_FREQUENCY` and `GET_PREAMBLE_LENGTH` read their registers most significant first and join them; they stop at the first
failing read. The spec's decision D10. -/
def Obligations.MultiByteGettersJoin : Prop :=
  ∀ s : State,
    (∀ m i l : Byte, s.env.replies [.read s.config.addrFrfMsb, .read s.config.addrFrfMid, .read s.config.addrFrfLsb] =
          [.ok [m], .ok [i], .ok [l]] →
        exec .getFrequency s = .next
          (s.completed [.read s.config.addrFrfMsb, .read s.config.addrFrfMid, .read s.config.addrFrfLsb] .ok
            (BitVec.ofNat 32 (m.toNat * 65536 + i.toNat * 256 + l.toNat)))) ∧
      (s.env.replies [.read s.config.addrFrfMsb] = [.fail] →
        exec .getFrequency s = .next (s.completed [.read s.config.addrFrfMsb] .regReadFailed 0)) ∧
      (∀ m : Byte, s.env.replies [.read s.config.addrFrfMsb, .read s.config.addrFrfMid] = [.ok [m], .fail] →
        exec .getFrequency s = .next
          (s.completed [.read s.config.addrFrfMsb, .read s.config.addrFrfMid] .regReadFailed 0)) ∧
      (∀ m i : Byte, s.env.replies [.read s.config.addrFrfMsb, .read s.config.addrFrfMid, .read s.config.addrFrfLsb] =
          [.ok [m], .ok [i], .fail] →
        exec .getFrequency s = .next
          (s.completed [.read s.config.addrFrfMsb, .read s.config.addrFrfMid, .read s.config.addrFrfLsb] .regReadFailed 0)) ∧
      (∀ m l : Byte, s.env.replies [.read s.config.addrPreambleMsb, .read s.config.addrPreambleLsb] = [.ok [m], .ok [l]] →
        exec .getPreambleLength s = .next
          (s.completed [.read s.config.addrPreambleMsb, .read s.config.addrPreambleLsb] .ok
            (BitVec.ofNat 32 (m.toNat * 256 + l.toNat)))) ∧
      (s.env.replies [.read s.config.addrPreambleMsb] = [.fail] →
        exec .getPreambleLength s = .next (s.completed [.read s.config.addrPreambleMsb] .regReadFailed 0)) ∧
      ∀ m : Byte, s.env.replies [.read s.config.addrPreambleMsb, .read s.config.addrPreambleLsb] = [.ok [m], .fail] →
        exec .getPreambleLength s = .next
          (s.completed [.read s.config.addrPreambleMsb, .read s.config.addrPreambleLsb] .regReadFailed 0)

/-- R132 to R137, R144 to R147 on a chip that is a plain register file (a named premise, R78): after a setter its getter answers the clamped
value, "not the original out-of-range input" (R137); for a valid DIO pin, the clamped mode. The chip is the model's premise (log 12); the
spec's decisions D10, D14. -/
def Obligations.ClampedSettersRoundTripOnPlainChip : Prop :=
  ∀ (v : Int) (pin : Byte) (s t u : State) (x : Chip) (set get : Instr) (lo hi : Nat), s.config.wf = true →
    Memory.wf x.regs = true → pin.toNat < s.config.dioPinCount →
    (set, get, lo, hi) ∈
      [(Instr.setSpreadingFactor v, Instr.getSpreadingFactor, s.config.sfMin, s.config.sfMax),
        (Instr.setBandwidth v, Instr.getBandwidth, s.config.bwMin, s.config.bwMax),
        (Instr.setCodingRate v, Instr.getCodingRate, s.config.crMin, s.config.crMax),
        (Instr.setTxPower v, Instr.getTxPower, s.config.pwrMin, s.config.pwrMax),
        (Instr.setDioMapping pin v, Instr.getDioMapping pin, 0, s.config.dioModeMax)] →
    exec set s = .next t → exec get t = .next u → (Chip.follow s.config x (newEntries s u)).isSome = true →
    u.responses = s.responses ++
      [{ status := .ok, data := 0 }, { status := .ok, data := BitVec.ofNat 32 (max (lo : Int) (min v hi)).toNat }]

/-! ## Mode and header commands -/

/-- R171, R172, R173: `MODE_SLEEP`, `MODE_STANDBY` and `MODE_RECEIVE` are each one direct write from every declared mode and nothing else;
the declared mode changes on success only. -/
def Obligations.SleepStandbyReceiveWriteMode : Prop :=
  ∀ s : State,
    WritesMode .modeSleep s .sleep (s.config.opmodeLongRange ||| s.config.opmodeSleep) ∧
      WritesMode .modeStandby s .standby (s.config.opmodeLongRange ||| s.config.opmodeStandby) ∧
      WritesMode .modeReceive s .receive (s.config.opmodeLongRange ||| s.config.opmodeRxCont)

/-- R174, R214: `MODE_TRANSMIT` and `CLOSE` are each one direct write and nothing else. The spec's decisions D36, D37. -/
def Obligations.TransmitAndCloseWriteMode : Prop :=
  ∀ s : State,
    WritesMode .modeTransmit s .transmit (s.config.opmodeLongRange ||| s.config.opmodeTx) ∧
      WritesMode .close s .sleep (s.config.opmodeLongRange ||| s.config.opmodeSleep)

/-- R175: `SET_EXPLICIT_HEADER` clears the header bit and, on success only, sets `st.header_mode`; `st.payload_size` stays. The spec's
decision D16. -/
def Obligations.SetExplicitHeaderClearsBit : Prop :=
  ∀ (s : State) (old : Byte) (ops : List Op),
    ops = [.read s.config.addrModemConfig1, .write s.config.addrModemConfig1 (old &&& ~~~s.config.mc1ImplicitHeader)] →
    (s.env.replies ops = [.ok [old], .ok []] →
        exec .setExplicitHeader s = .next ({ s with radio := { s.radio with headerMode := .explicit } }.completed ops .ok 0)) ∧
      (s.env.replies (ops.take 1) = [.fail] → exec .setExplicitHeader s = .next (s.completed (ops.take 1) .regReadFailed 0)) ∧
      (s.env.replies ops = [.ok [old], .fail] → exec .setExplicitHeader s = .next (s.completed ops .regWriteFailed 0))

/-- R176: `SET_IMPLICIT_HEADER` sets the header bit, then writes the length; RadioState changes only if all three accesses succeeded. The
spec's decision D16. -/
def Obligations.SetImplicitHeaderSetsBitAndLength : Prop :=
  ∀ (s : State) (size old : Byte) (ops : List Op),
    ops = [.read s.config.addrModemConfig1, .write s.config.addrModemConfig1 (old ||| s.config.mc1ImplicitHeader),
      .write s.config.addrPayloadLength size] →
    (s.env.replies ops = [.ok [old], .ok [], .ok []] →
        exec (.setImplicitHeader size) s = .next
          ({ s with radio := { s.radio with headerMode := .implicit, payloadSize := size } }.completed ops .ok 0)) ∧
      (s.env.replies (ops.take 1) = [.fail] →
        exec (.setImplicitHeader size) s = .next (s.completed (ops.take 1) .regReadFailed 0)) ∧
      (s.env.replies (ops.take 2) = [.ok [old], .fail] →
        exec (.setImplicitHeader size) s = .next (s.completed (ops.take 2) .regWriteFailed 0)) ∧
      (s.env.replies ops = [.ok [old], .ok [], .fail] →
        exec (.setImplicitHeader size) s = .next (s.completed ops .regWriteFailed 0))

/-! ## SEND_PACKET -/

/-- R180, R182, R184: transmit-done seen at poll `vs.length + 1`. Both cleanup writes are issued whatever they answer; the declared mode
ends at `Sleep` if the Sleep write answered `ok`, else at `Transmit`; the status is `OK` unless a cleanup write failed. The spec's decisions
D16, D18, D20, D22. -/
def Obligations.SendPacketTransmitDone : Prop :=
  ∀ (len : Byte) (s : State) (vs : List Byte) (v : Byte) (a6 a7 : Answer) (ops : List Op),
    vs.length < s.config.pollCap → (∀ x ∈ vs, x &&& s.config.irqTxDone = 0) → v &&& s.config.irqTxDone ≠ 0 →
    ops = armOps s.config len ++ pollRounds s.config vs.length ++ [.read s.config.addrIrqFlags] ++ cleanupOps s.config →
    s.env.replies ops = allOk (armOps s.config len) ++ roundAnswers vs ++ ([.ok [v], a6, a7] : List Answer) →
    exec (.sendPacket len) s = .next
      ((s.withMode (if a6 = .fail then .transmit else .sleep)).completed ops
        (if a6 = .fail ∨ a7 = .fail then .regWriteFailed else .ok) 0)

/-- R182, R183, R184: the cap is reached after exactly `POLL_CAP` reads and `POLL_CAP` delays; the lost-packet count goes up by one, the
cleanup is still issued, and the status is `SEND_TIMEOUT` whatever the cleanup writes answered. The spec's decisions D16, D18, D20, D30. -/
def Obligations.SendPacketTimesOut : Prop :=
  ∀ (len : Byte) (s : State) (vs : List Byte) (a6 a7 : Answer) (ops : List Op),
    vs.length = s.config.pollCap → (∀ x ∈ vs, x &&& s.config.irqTxDone = 0) →
    ops = armOps s.config len ++ pollRounds s.config s.config.pollCap ++ cleanupOps s.config →
    s.env.replies ops = allOk (armOps s.config len) ++ roundAnswers vs ++ [a6, a7] →
    exec (.sendPacket len) s = .next
      ({ s with
          radio := { s.radio with
            operatingMode := if a6 = Answer.fail then .transmit else .sleep
            lostPacketCount := BitVec.ofNat 32 (min (s.radio.lostPacketCount.toNat + 1) 4294967295) } }.completed ops
        .sendTimeout 0)

/-- R182, R184, D19: a poll read that fails leaves the loop with `REG_READ_FAILED`; the cleanup is still issued and the lost-packet count
does not change. A failed poll read is the spec's decision D19. -/
def Obligations.SendPacketPollReadFails : Prop :=
  ∀ (len : Byte) (s : State) (vs : List Byte) (a6 a7 : Answer) (ops : List Op),
    vs.length < s.config.pollCap → (∀ x ∈ vs, x &&& s.config.irqTxDone = 0) →
    ops = armOps s.config len ++ pollRounds s.config vs.length ++ [.read s.config.addrIrqFlags] ++ cleanupOps s.config →
    s.env.replies ops = allOk (armOps s.config len) ++ roundAnswers vs ++ ([.fail, a6, a7] : List Answer) →
    exec (.sendPacket len) s = .next
      ((s.withMode (if a6 = .fail then .transmit else .sleep)).completed ops .regReadFailed 0)

/-- R181: a failure in steps 1 to 5 ends `SEND_PACKET` at once with `FAILURE`: no poll loop, no cleanup, the lost-packet count unchanged,
the declared mode `Standby` if step 1 had succeeded. The spec's decision D21. -/
def Obligations.SendPacketArmingAborts : Prop :=
  ∀ (len : Byte) (s : State) (k : Nat) (ops : List Op), k < (armOps s.config len).length →
    ops = (armOps s.config len).take (k + 1) → s.env.replies ops = List.replicate k (.ok []) ++ [.fail] →
    exec (.sendPacket len) s = .next
      ((if k = 0 then s else s.withMode .standby).completed ops .failure 0)

/-- R180, R185 (6), R83 on a plain chip (a named premise, R78): after the command the payload `txbuf[0 .. len-1]` lies in the FIFO from
position 0. The chip's cursor is PRESUMED (G2). That its FIFO holds 256 bytes, so that a payload of every length up to 255 fits (R55 and N10
leave the size open), and that it keeps them through the write of Sleep that ends the command (R234 and N11 leave it open), are the
premise's own choices; all three are log 12. The spec's decision D39. -/
def Obligations.PayloadReachesFifoOnPlainChip : Prop :=
  ∀ (len : Byte) (s t : State) (x y : Chip), s.config.wf = true → Memory.wf x.fifo = true → Memory.wf x.regs = true →
    exec (.sendPacket len) s = .next t → Chip.follow s.config x (newEntries s t) = some y →
    ∀ j, j < len.toNat → Memory.read y.fifo j = Memory.read s.txbuf j

/-! ## RECEIVE_PACKET and POLL_RECEIVED -/

/-- R190, R191: without a good packet `RECEIVE_PACKET` is exactly the flags read and their write-back; receive-done decides before
CRC-error; a failed write-back is reported whatever the flags show. Statuses of transport failures: the spec's decision D23. -/
def Obligations.ReceivePacketWithoutGoodPacket : Prop :=
  ∀ (cap : BitVec 32) (s : State) (v : Byte) (ops : List Op),
    ops = [.read s.config.addrIrqFlags, .write s.config.addrIrqFlags v] →
    (s.env.replies (ops.take 1) = [.fail] → exec (.receivePacket cap) s = .next (s.completed (ops.take 1) .regReadFailed 0)) ∧
      (s.env.replies ops = [.ok [v], .fail] → exec (.receivePacket cap) s = .next (s.completed ops .regWriteFailed 0)) ∧
      (s.env.replies ops = [.ok [v], .ok []] → v &&& s.config.irqRxDone = 0 →
        exec (.receivePacket cap) s = .next (s.completed ops .noData 0)) ∧
      (s.env.replies ops = [.ok [v], .ok []] → v &&& s.config.irqRxDone ≠ 0 → v &&& s.config.irqCrcError ≠ 0 →
        exec (.receivePacket cap) s = .next (s.completed ops .crcError 0))

/-- R190, R191 (5) (6) (8): a good packet. The length is read from the register that `st.header_mode` chooses, `min(len, cap)` bytes are
copied to `rxbuf[0 ..]` and every other byte of `rxbuf` is left alone; a count of 0 issues no burst; the declared mode becomes `Standby`.
The spec's decisions D16, D22, D39. -/
def Obligations.ReceivePacketCopiesPacket : Prop :=
  ∀ (cap : BitVec 32) (s : State) (v len p : Byte) (data : List Byte) (n : Nat) (ops : List Op),
    Memory.wf s.rxbuf = true → v &&& s.config.irqRxDone ≠ 0 → v &&& s.config.irqCrcError = 0 →
    n = min len.toNat cap.toNat → data.length = n →
    ops = [.read s.config.addrIrqFlags, .write s.config.addrIrqFlags v,
        .read (if s.radio.headerMode = .implicit then s.config.addrPayloadLength else s.config.addrRxNbBytes),
        .write s.config.addrOpMode (modeByte s.config .standby), .read s.config.addrFifoRxCurrent,
        .write s.config.addrFifoAddrPtr p] ++ (if n = 0 then [] else [.burstRead s.config.addrFifo n]) →
    s.env.replies ops =
      ([.ok [v], .ok [], .ok [len], .ok [], .ok [p], .ok []] : List Answer) ++ (if n = 0 then [] else [.ok data]) →
    ∃ t, exec (.receivePacket cap) s = .next t ∧
      t = { (s.withMode .standby).completed ops .ok (BitVec.ofNat 32 n) with rxbuf := t.rxbuf } ∧
      ∀ j, Memory.read t.rxbuf j = if j < n then data.getD j 0 else Memory.read s.rxbuf j

/-- R191, R222: a good packet and a failure at transaction 3 to 7: the status of the failed primitive, data 0, no later step; the declared
mode is `Standby` from step 5 on; after a failed burst the bytes of `rxbuf` from the requested count on are untouched (U6: those below it
are free). The spec's decision D23; the free bytes are log 8. -/
def Obligations.ReceivePacketFailsInSequence : Prop :=
  ∀ (cap : BitVec 32) (s : State) (v len p : Byte) (n : Nat) (ops : List Op),
    v &&& s.config.irqRxDone ≠ 0 → v &&& s.config.irqCrcError = 0 → n = min len.toNat cap.toNat →
    ops = [.read s.config.addrIrqFlags, .write s.config.addrIrqFlags v,
        .read (if s.radio.headerMode = .implicit then s.config.addrPayloadLength else s.config.addrRxNbBytes),
        .write s.config.addrOpMode (modeByte s.config .standby), .read s.config.addrFifoRxCurrent,
        .write s.config.addrFifoAddrPtr p, .burstRead s.config.addrFifo n] →
    (s.env.replies (ops.take 3) = [.ok [v], .ok [], .fail] →
        exec (.receivePacket cap) s = .next (s.completed (ops.take 3) .regReadFailed 0)) ∧
      (s.env.replies (ops.take 4) = [.ok [v], .ok [], .ok [len], .fail] →
        exec (.receivePacket cap) s = .next (s.completed (ops.take 4) .regWriteFailed 0)) ∧
      (s.env.replies (ops.take 5) = [.ok [v], .ok [], .ok [len], .ok [], .fail] →
        exec (.receivePacket cap) s = .next ((s.withMode .standby).completed (ops.take 5) .regReadFailed 0)) ∧
      (s.env.replies (ops.take 6) = [.ok [v], .ok [], .ok [len], .ok [], .ok [p], .fail] →
        exec (.receivePacket cap) s = .next ((s.withMode .standby).completed (ops.take 6) .regWriteFailed 0)) ∧
      (0 < n → s.env.replies ops = [.ok [v], .ok [], .ok [len], .ok [], .ok [p], .ok [], .fail] →
        ∃ t, exec (.receivePacket cap) s = .next t ∧
          t = { (s.withMode .standby).completed ops .bufReadFailed 0 with rxbuf := t.rxbuf } ∧
          ∀ j, n ≤ j → Memory.read t.rxbuf j = Memory.read s.rxbuf j)

/-- R192: `POLL_RECEIVED` reads the flags once; only a CRC-error seen together with receive-done is reported, and then that flag alone is
cleared; a failed clear still carries the flags. The spec's decision D24. -/
def Obligations.PollReceivedReportsFlags : Prop :=
  ∀ (s : State) (v : Byte) (ops : List Op),
    ops = [.read s.config.addrIrqFlags, .write s.config.addrIrqFlags s.config.irqCrcError] →
    (s.env.replies (ops.take 1) = [.fail] → exec .pollReceived s = .next (s.completed (ops.take 1) .regReadFailed 0)) ∧
      (s.env.replies (ops.take 1) = [.ok [v]] → v &&& s.config.irqRxDone = 0 →
        exec .pollReceived s = .next (s.completed (ops.take 1) .ok 0)) ∧
      (s.env.replies (ops.take 1) = [.ok [v]] → v &&& s.config.irqRxDone ≠ 0 → v &&& s.config.irqCrcError = 0 →
        exec .pollReceived s = .next (s.completed (ops.take 1) .ok 1)) ∧
      (s.env.replies ops = [.ok [v], .ok []] → v &&& s.config.irqRxDone ≠ 0 → v &&& s.config.irqCrcError ≠ 0 →
        exec .pollReceived s = .next (s.completed ops .ok 3)) ∧
      (s.env.replies ops = [.ok [v], .fail] → v &&& s.config.irqRxDone ≠ 0 → v &&& s.config.irqCrcError ≠ 0 →
        exec .pollReceived s = .next (s.completed ops .regWriteFailed 3))

/-- R193 (2), R266, R84 on a plain chip (a named premise, R78): a corrupt packet found by `POLL_RECEIVED` is handed over by the next
`RECEIVE_PACKET` with status `OK`. The spec marks R193 as derived; the chip is the model's premise (log 12). -/
def Obligations.PolledCorruptPacketIsReceivedAsGood : Prop :=
  ∀ (cap : BitVec 32) (s t u : State) (x : Chip), s.config.wf = true → Memory.wf x.regs = true →
    Memory.read x.regs s.config.addrIrqFlags.toNat &&& s.config.irqRxDone ≠ 0 →
    Memory.read x.regs s.config.addrIrqFlags.toNat &&& s.config.irqCrcError ≠ 0 →
    exec .pollReceived s = .next t → exec (.receivePacket cap) t = .next u →
    (Chip.follow s.config x (newEntries s u)).isSome = true →
    ∃ n, u.responses = s.responses ++ [{ status := .ok, data := 3 }, { status := .ok, data := n }]

/-! ## Diagnostics -/

/-- R201: `PACKET_LOST_COUNT` answers the counter, issues no transaction and changes nothing. -/
def Obligations.PacketLostCountAnswersCounter : Prop :=
  ∀ s : State, exec .packetLostCount s = .next (s.completed [] .ok s.radio.lostPacketCount)

/-- R202, R203: `PACKET_RSSI` answers `raw - 164` below 868 MHz and `raw - 157` at or above, by `st.frequency_hz`, as 32-bit two's complement
and exactly where that holds it; `PACKET_SNR` answers the signed raw byte, in decibels divided by `2 ^ SNR_FRAC_BITS`. The spec's decision
D25. -/
def Obligations.RssiAndSnrArithmetic : Prop :=
  ∀ (s : State) (off : Nat),
    off = (if s.radio.frequencyHz.toNat < s.config.rssiBandHz then s.config.rssiOffsetLow else s.config.rssiOffsetHigh) →
    ∃ rssi snr : Byte → Word, ReadsOne .packetRssi s s.config.addrPktRssi rssi ∧ ReadsOne .packetSnr s s.config.addrPktSnr snr ∧
      (∀ raw, (rssi raw).toInt = ((raw.toNat : Int) - off).bmod (2 ^ 32)) ∧
      (∀ raw, off ≤ 2 ^ 31 → (rssi raw).toInt = (raw.toNat : Int) - off) ∧
      (∀ raw, (snr raw).toInt = if raw.toNat < 128 then (raw.toNat : Int) else (raw.toNat : Int) - 256) ∧
      ∀ raw, snrDecibels s.config (snr raw) * 2 ^ s.config.snrFracBits = (raw.toInt : Rat)

/-- R204: `DUMP_REGISTERS` reads addresses 0 upwards one by one into `dumpbuf`, and touches no other byte of it; the first failed read ends
it with the number of entries written. The spec's decision D26. -/
def Obligations.DumpRegistersListsAddresses : Prop :=
  ∀ (s : State) (bytes : List Byte), Memory.wf s.dumpbuf = true →
    (bytes.length = s.config.dumpCount → s.env.replies (dumpOps s.config.dumpCount) = bytes.map (fun v => .ok [v]) →
        ∃ t, exec .dumpRegisters s = .next t ∧
          t = { s.completed (dumpOps s.config.dumpCount) .ok (BitVec.ofNat 32 s.config.dumpCount) with dumpbuf := t.dumpbuf } ∧
          ∀ j, Memory.read t.dumpbuf j = if j < bytes.length then bytes.getD j 0 else Memory.read s.dumpbuf j) ∧
      (bytes.length < s.config.dumpCount →
        s.env.replies (dumpOps (bytes.length + 1)) = bytes.map (fun v => .ok [v]) ++ [.fail] →
        ∃ t, exec .dumpRegisters s = .next t ∧
          t = { s.completed (dumpOps (bytes.length + 1)) .regReadFailed (BitVec.ofNat 32 bytes.length) with dumpbuf := t.dumpbuf } ∧
          ∀ j, Memory.read t.dumpbuf j = if j < bytes.length then bytes.getD j 0 else Memory.read s.dumpbuf j)

/-! ## DRIVER_INIT -/

/-- R210, R211, R212: the version matches at read `vs.length + 1`: the tail is run, and the declared mode is `Standby`. The spec's decisions
D27, D28 (log 10 for the open budget). -/
def Obligations.DriverInitFindsChip : Prop :=
  ∀ (s : State) (vs : List Byte) (lna : Byte) (ops : List Op), vs.length < s.config.retryBudget →
    (∀ x ∈ vs, x ≠ s.config.versionId) →
    ops = ([.busInit] : List Op) ++ versionRounds s.config vs.length ++ [.read s.config.addrVersion] ++ tailOps s.config lna →
    s.env.replies ops = ([.ok []] : List Answer) ++ roundAnswers vs ++ ([.ok [s.config.versionId]] : List Answer) ++
      ([.ok [], .ok [], .ok [], .ok [lna], .ok [], .ok [], .ok []] : List Answer) →
    exec .driverInit s = .next ((s.withMode .standby).completed ops .ok 0)

/-- R210, R211: a bus that cannot be initialized, a version read that fails, and a version that never matches within exactly
`INIT_RETRY_BUDGET` reads and delays: nothing of the chip is written and RadioState is unchanged. The spec's decisions D27, D28 (log 10 for
the open budget). -/
def Obligations.DriverInitGivesUp : Prop :=
  ∀ (s : State) (vs : List Byte), (∀ x ∈ vs, x ≠ s.config.versionId) →
    (s.env.replies [.busInit] = [.fail] → exec .driverInit s = .next (s.completed [.busInit] .busInitFailed 0)) ∧
      (vs.length < s.config.retryBudget →
        s.env.replies (([.busInit] : List Op) ++ versionRounds s.config vs.length ++ [.read s.config.addrVersion]) =
          ([.ok []] : List Answer) ++ roundAnswers vs ++ ([.fail] : List Answer) →
        exec .driverInit s = .next
          (s.completed (([.busInit] : List Op) ++ versionRounds s.config vs.length ++ [.read s.config.addrVersion]) .regReadFailed 0)) ∧
      (vs.length = s.config.retryBudget →
        s.env.replies (([.busInit] : List Op) ++ versionRounds s.config vs.length) = ([.ok []] : List Answer) ++ roundAnswers vs →
        exec .driverInit s = .next (s.completed (([.busInit] : List Op) ++ versionRounds s.config vs.length) .initTimeout 0))

/-- R212: a failure at transaction `k` of the tail ends the command there; the declared mode is `Sleep` once the first tail write has
succeeded. The spec's decisions D16, D27, D28. -/
def Obligations.DriverInitTailFails : Prop :=
  ∀ (s : State) (vs : List Byte) (lna : Byte) (k : Nat) (ops : List Op), vs.length < s.config.retryBudget →
    (∀ x ∈ vs, x ≠ s.config.versionId) → k < 7 →
    ops = ([.busInit] : List Op) ++ versionRounds s.config vs.length ++ [.read s.config.addrVersion] ++ (tailOps s.config lna).take (k + 1) →
    s.env.replies ops = ([.ok []] : List Answer) ++ roundAnswers vs ++ ([.ok [s.config.versionId]] : List Answer) ++
      ([.ok [], .ok [], .ok [], .ok [lna], .ok [], .ok []] : List Answer).take k ++ [.fail] →
    exec .driverInit s = .next
      ((if k = 0 then s else s.withMode .sleep).completed ops (if k = 3 then .regReadFailed else .regWriteFailed) 0)
end

