-- ==== Sys2Proof/Laws/Decode.lean ====
section
/-! SUPPORT. The fields of an assembled command word. -/

namespace Sys2Proof

@[simp] theorem Cmd48.op_append (op b : Byte) (a : Word) : Cmd48.op (op ++ b ++ a) = op := by
  simp only [Cmd48.op]
  apply BitVec.eq_of_getLsbD_eq
  intro i hi
  simp only [BitVec.getLsbD_extractLsb', BitVec.getLsbD_append, dataBits, hi, decide_true, Bool.true_and]
  have h1 : ¬ (40 + i < 32) := by omega
  have h2 : ¬ (40 + i - 32 < 8) := by omega
  simp only [h1, h2, if_false]
  congr 1
  omega

@[simp] theorem Cmd48.b_append (op b : Byte) (a : Word) : Cmd48.b (op ++ b ++ a) = b := by
  simp only [Cmd48.b]
  apply BitVec.eq_of_getLsbD_eq
  intro i hi
  simp only [BitVec.getLsbD_extractLsb', BitVec.getLsbD_append, dataBits, hi, decide_true, Bool.true_and]
  have h1 : ¬ (32 + i < 32) := by omega
  have h2 : 32 + i - 32 < 8 := by omega
  simp only [h1, h2, if_false, if_true]
  congr 1
  omega

@[simp] theorem Cmd48.a_append (op b : Byte) (a : Word) : Cmd48.a (op ++ b ++ a) = a := by
  simp only [Cmd48.a]
  apply BitVec.eq_of_getLsbD_eq
  intro i hi
  simp only [BitVec.getLsbD_extractLsb', BitVec.getLsbD_append, dataBits, hi, decide_true, Bool.true_and]
  have h1 : 0 + i < 32 := by omega
  simp only [h1, if_true]
  congr 1
  omega

@[simp] theorem encode_op (i : Instr) : (encode i).op = i.opcode := Cmd48.op_append _ _ _

@[simp] theorem encode_b (i : Instr) : (encode i).b = i.operandB := Cmd48.b_append _ _ _

@[simp] theorem encode_a (i : Instr) : (encode i).a = i.operandA := Cmd48.a_append _ _ _

end Sys2Proof
end

