-- ==== Sys2Proof/Laws/Memory.lean ====
section
/-! SUPPORT. The host buffers: what a read gives after a write, and that every operation keeps the canonical form. -/

namespace Sys2Proof.Machine

theorem Memory.read_blank_of_below {m : Memory} {lo i : Nat} (h : Memory.wfFrom lo m = true) (hi : i < lo) :
    Memory.read m i = Memory.blank := by
  induction m generalizing lo with
  | nil => rfl
  | cons cell m ih =>
    obtain ⟨k, v⟩ := cell
    simp only [Memory.wfFrom, Bool.and_eq_true, decide_eq_true_eq] at h
    have hk : k ≠ i := by omega
    simp only [Memory.read, if_neg hk]
    exact ih h.2 (by omega)

theorem Memory.wfFrom_mono {m : Memory} {lo lo' : Nat} (h : Memory.wfFrom lo m = true) (hl : lo' ≤ lo) :
    Memory.wfFrom lo' m = true := by
  cases m with
  | nil => rfl
  | cons cell m =>
    obtain ⟨k, v⟩ := cell
    simp only [Memory.wfFrom, Bool.and_eq_true, decide_eq_true_eq] at h ⊢
    exact ⟨⟨by omega, h.1.2⟩, h.2⟩

/-- A write keeps the canonical form. -/
theorem Memory.write_wfFrom {m : Memory} {lo i : Nat} {b : Byte} (h : Memory.wfFrom lo m = true) (hi : lo ≤ i) :
    Memory.wfFrom lo (Memory.write m i b) = true := by
  induction m generalizing lo with
  | nil =>
    by_cases hb : b = Memory.blank
    · simp [Memory.write, hb, Memory.wfFrom]
    · simp [Memory.write, hb, Memory.wfFrom, hi]
  | cons cell m ih =>
    obtain ⟨k, v⟩ := cell
    have h' := h
    simp only [Memory.wfFrom, Bool.and_eq_true, decide_eq_true_eq] at h'
    by_cases hik : i < k
    · by_cases hb : b = Memory.blank
      · simpa [Memory.write, hik, hb] using h
      · simp only [Memory.write, if_pos hik, if_neg hb, Memory.wfFrom, Bool.and_eq_true, decide_eq_true_eq]
        exact ⟨⟨hi, by simpa using hb⟩, ⟨⟨by omega, h'.1.2⟩, h'.2⟩⟩
    · by_cases hki : k = i
      · by_cases hb : b = Memory.blank
        · simp only [Memory.write, if_neg hik, if_pos hki, if_pos hb]
          exact Memory.wfFrom_mono h'.2 (by omega)
        · simp only [Memory.write, if_neg hik, if_pos hki, if_neg hb, Memory.wfFrom, Bool.and_eq_true, decide_eq_true_eq]
          exact ⟨⟨hi, by simpa using hb⟩, hki ▸ h'.2⟩
      · simp only [Memory.write, if_neg hik, if_neg hki, Memory.wfFrom, Bool.and_eq_true, decide_eq_true_eq]
        exact ⟨⟨h'.1.1, h'.1.2⟩, ih h'.2 (by omega)⟩

theorem Memory.write_wf {m : Memory} {i : Nat} {b : Byte} (h : Memory.wf m = true) : Memory.wf (Memory.write m i b) = true :=
  Memory.write_wfFrom h (Nat.zero_le i)

theorem Memory.writeFrom_wf {m : Memory} {start : Nat} {bytes : List Byte} (h : Memory.wf m = true) :
    Memory.wf (Memory.writeFrom m start bytes) = true := by
  induction bytes generalizing m start with
  | nil => exact h
  | cons b rest ih => exact ih (Memory.write_wf h)

/-- A read after a write to the same index gives the byte written, where the buffer is in canonical form. -/
theorem Memory.read_write_same {m : Memory} {lo i : Nat} {b : Byte} (h : Memory.wfFrom lo m = true) :
    Memory.read (Memory.write m i b) i = b := by
  induction m generalizing lo with
  | nil =>
    by_cases hb : b = Memory.blank
    · simp [Memory.write, hb, Memory.read]
    · simp [Memory.write, hb, Memory.read]
  | cons cell m ih =>
    obtain ⟨k, v⟩ := cell
    simp only [Memory.wfFrom, Bool.and_eq_true, decide_eq_true_eq] at h
    by_cases hik : i < k
    · by_cases hb : b = Memory.blank
      · have hk : k ≠ i := by omega
        subst hb
        simp only [Memory.write, if_pos hik, ↓reduceIte, Memory.read, if_neg hk]
        exact Memory.read_blank_of_below h.2 (by omega)
      · simp [Memory.write, hik, hb, Memory.read]
    · by_cases hki : k = i
      · by_cases hb : b = Memory.blank
        · subst hb
          simp only [Memory.write, if_neg hik, if_pos hki, ↓reduceIte]
          exact Memory.read_blank_of_below h.2 (by omega)
        · simp [Memory.write, hki, hb, Memory.read]
      · simp only [Memory.write, if_neg hik, if_neg hki, Memory.read]
        exact ih h.2

/-- A write leaves every other index alone. -/
theorem Memory.read_write_other {m : Memory} {i j : Nat} {b : Byte} (hij : i ≠ j) :
    Memory.read (Memory.write m i b) j = Memory.read m j := by
  induction m with
  | nil =>
    by_cases hb : b = Memory.blank
    · simp [Memory.write, hb]
    · simp [Memory.write, hb, Memory.read, hij]
  | cons cell m ih =>
    obtain ⟨k, v⟩ := cell
    by_cases hik : i < k
    · by_cases hb : b = Memory.blank
      · simp [Memory.write, hik, hb]
      · simp [Memory.write, hik, hb, Memory.read, hij]
    · by_cases hki : k = i
      · have hkj : k ≠ j := by omega
        by_cases hb : b = Memory.blank
        · simp [Memory.write, hki, hb, Memory.read, hij]
        · simp [Memory.write, hki, hb, Memory.read, hij]
      · simp only [Memory.write, if_neg hik, if_neg hki, Memory.read, ih]

/-- What a run of writes leaves: outside it nothing changes. -/
theorem Memory.read_writeFrom_outside {m : Memory} {start i : Nat} {bytes : List Byte}
    (h : i < start ∨ start + bytes.length ≤ i) :
    Memory.read (Memory.writeFrom m start bytes) i = Memory.read m i := by
  induction bytes generalizing m start with
  | nil => rfl
  | cons b rest ih =>
    simp only [List.length_cons] at h
    simp only [Memory.writeFrom]
    rw [ih (by omega), Memory.read_write_other (by omega)]

/-- What a run of writes leaves: inside it the bytes written, where the buffer is in canonical form. -/
theorem Memory.read_writeFrom_inside {m : Memory} {start j : Nat} {bytes : List Byte} (h : Memory.wf m = true)
    (hj : j < bytes.length) : Memory.read (Memory.writeFrom m start bytes) (start + j) = bytes.getD j 0 := by
  induction bytes generalizing m start j with
  | nil => simp at hj
  | cons b rest ih =>
    simp only [Memory.writeFrom]
    cases j with
    | zero =>
      rw [Nat.add_zero, Memory.read_writeFrom_outside (by omega)]
      simpa using Memory.read_write_same (lo := 0) h
    | succ j =>
      have := ih (m := Memory.write m start b) (start := start + 1) (j := j) (Memory.write_wf h) (by simpa using hj)
      rw [show start + (j + 1) = start + 1 + j by omega, this]
      simp

theorem Memory.write_below {m : Memory} {n i : Nat} {b : Byte} (h : Memory.below n m = true) (hi : i < n) :
    Memory.below n (Memory.write m i b) = true := by
  induction m with
  | nil =>
    by_cases hb : b = Memory.blank
    · simp [Memory.write, hb, Memory.below]
    · simp [Memory.write, hb, Memory.below, hi]
  | cons cell m ih =>
    obtain ⟨k, v⟩ := cell
    have h' : k < n ∧ Memory.below n m = true := by
      simpa [Memory.below] using h
    have cons_below : ∀ {k' : Nat} {v' : Byte} {m' : Memory}, k' < n → Memory.below n m' = true →
        Memory.below n ((k', v') :: m') = true := by
      intro k' v' m' hk hm
      simpa [Memory.below] using ⟨hk, by simpa [Memory.below] using hm⟩
    by_cases hik : i < k
    · by_cases hb : b = Memory.blank
      · simpa only [Memory.write, if_pos hik, if_pos hb] using h
      · simpa only [Memory.write, if_pos hik, if_neg hb] using cons_below hi h
    · by_cases hki : k = i
      · by_cases hb : b = Memory.blank
        · simpa only [Memory.write, if_neg hik, if_pos hki, if_pos hb] using h'.2
        · simpa only [Memory.write, if_neg hik, if_pos hki, if_neg hb] using cons_below hi h'.2
      · simpa only [Memory.write, if_neg hik, if_neg hki] using cons_below h'.1 (ih h'.2)

theorem Memory.writeFrom_below {m : Memory} {n start : Nat} {bytes : List Byte} (h : Memory.below n m = true)
    (hn : start + bytes.length ≤ n) : Memory.below n (Memory.writeFrom m start bytes) = true := by
  induction bytes generalizing m start with
  | nil => exact h
  | cons b rest ih =>
    simp only [List.length_cons] at hn
    exact ih (Memory.write_below h (by omega)) (by omega)

end Sys2Proof.Machine
end

