-- ==== Sys2Proof/Laws/Params.lean ====
section
/-! SUPPORT. What the constraints of 00_scope R7 give, one by one, and the values of bit fields. -/

namespace Sys2Proof.Machine

/-- The constraints of R7 as named facts (log 11). -/
structure Params (c : Config) : Prop where
  addresses : Config.distinct c.namedAddresses = true
  flagMasks : Config.pairwiseDisjoint [c.irqTxDone, c.irqRxDone, c.irqCrcError] = true
  power : Config.disjoint c.paBoost c.pwrFieldMask = true
  sf : c.sfMin ≤ c.sfMax
  bw : c.bwMin ≤ c.bwMax
  cr : c.crMin ≤ c.crMax
  pwr : c.pwrMin ≤ c.pwrMax
  crBias : c.crBias ≤ c.crMin
  pwrBias : c.pwrBias ≤ c.pwrMin
  bwWindow : Config.fitsWindow c.mc1BwMask c.mc1BwShift c.bwMin (c.bwMax + 1 - c.bwMin) = true
  crWindow : Config.fitsWindow c.mc1CrMask c.mc1CrShift (c.crMin - c.crBias) (c.crMax + 1 - c.crMin) = true
  sfWindow : Config.fitsWindow c.mc2SfMask c.mc2SfShift c.sfMin (c.sfMax + 1 - c.sfMin) = true
  pwrWindow : Config.fitsWindow c.pwrFieldMask 0 (c.pwrMin - c.pwrBias) (c.pwrMax + 1 - c.pwrMin) = true
  dioLength : c.dioShift.length = c.dioPinCount
  dioShifts : ∀ n ∈ c.dioShift, n ≤ 6
  dioMode : c.dioModeMax ≤ 3
  dioFirst : Config.pairwiseDisjoint ((c.dioShift.take c.dioPinsInReg1).map Config.dioWindow) = true
  dioSecond : Config.pairwiseDisjoint ((c.dioShift.drop c.dioPinsInReg1).map Config.dioWindow) = true
  address : c.addrBits ≤ 8
  dump : c.dumpCount ≤ 2 ^ c.addrBits

theorem Params.of {c : Config} (h : c.wf = true) : Params c := by
  simp only [Config.wf, List.all_cons, List.all_nil, id_eq, Bool.and_eq_true, decide_eq_true_eq, List.all_eq_true] at h
  constructor <;> simp_all

/-- Dumped addresses fit the 8 bits of an address. -/
theorem Params.dump_le {c : Config} (h : Params c) : c.dumpCount ≤ 256 :=
  h.dump.trans (Nat.pow_le_pow_right (by decide) h.address)

theorem distinct_nodup {l : List Addr} (h : Config.distinct l = true) : l.Nodup := by
  induction l with
  | nil => exact List.nodup_nil
  | cons a l ih =>
    simp only [Config.distinct, Bool.and_eq_true, Bool.not_eq_true', List.contains_eq_mem, decide_eq_false_iff_not] at h
    exact List.nodup_cons.mpr ⟨h.1, ih h.2⟩

/-- The 27 registers have 27 addresses. -/
theorem Params.nodup {c : Config} (h : Params c) : c.namedAddresses.Nodup := distinct_nodup h.addresses

/-- Two named registers at different places of the table have different addresses. -/
theorem Params.ne {c : Config} (h : Params c) {i j : Nat} (hi : i < c.namedAddresses.length) (hj : j < c.namedAddresses.length)
    (hij : i ≠ j) : c.namedAddresses[i] ≠ c.namedAddresses[j] :=
  fun e => hij ((List.Nodup.getElem_inj_iff h.nodup).mp e)

theorem clampTo_eq {lo hi : Nat} (h : lo ≤ hi) (v : Int) : clampTo v lo hi = (max (lo : Int) (min v hi)).toNat := by
  unfold clampTo clamp
  split
  · omega
  · split <;> omega

theorem clampTo_bounds {lo hi : Nat} (h : lo ≤ hi) (v : Int) : lo ≤ clampTo v lo hi ∧ clampTo v lo hi ≤ hi := by
  rw [clampTo_eq h]
  omega

/-- A value of a window's range, shifted into place, is a byte inside the mask. -/
theorem fitsWindow_placed {mask : Byte} {shift lo n k : Nat} (h : Config.fitsWindow mask shift lo n = true) (h1 : lo ≤ k)
    (h2 : k < lo + n) : k <<< shift < 256 ∧ placed k shift &&& mask = placed k shift := by
  induction n with
  | zero => omega
  | succ n ih =>
    simp only [Config.fitsWindow, Bool.and_eq_true, decide_eq_true_eq, beq_iff_eq] at h
    by_cases hk : k = lo + n
    · subst hk; exact h.1
    · exact ih h.2 (by omega)

theorem placed_field {k shift : Nat} (h : k <<< shift < 256) : (placed k shift).toNat >>> shift = k := by
  rw [placed, BitVec.toNat_ofNat, show 2 ^ dataBits = 256 from rfl, Nat.mod_eq_of_lt h, Nat.shiftLeft_shiftRight]

end Sys2Proof.Machine
end

