-- ==== Sys2Proof/Laws/PerInstr.lean ====
section
/-! SUPPORT. Statements about every command as syntax, one lemma per constructor. -/

namespace Sys2Proof.Laws

/-- The 34 opcodes of 30_encoding R102. -/
def tableOpcodes : List Byte :=
  [0x01, 0x02, 0x10, 0x11, 0x12, 0x13, 0x14, 0x15, 0x16, 0x17, 0x18, 0x20, 0x21, 0x22, 0x23, 0x24, 0x25, 0x26, 0x27, 0x28,
   0x30, 0x31, 0x32, 0x33, 0x34, 0x35, 0x40, 0x41, 0x42, 0x50, 0x51, 0x52, 0x53, 0x54]

/-- The encoded word of a command carries the command's opcode, and that opcode is in the table. -/
def EncodesInTable.Statement (i : Instr) : Prop := (encode i).op = i.opcode ∧ tableOpcodes.contains i.opcode = true

theorem EncodesInTable.driverInit : EncodesInTable.Statement .driverInit := ⟨encode_op _, rfl⟩

theorem EncodesInTable.close : EncodesInTable.Statement .close := ⟨encode_op _, rfl⟩

theorem EncodesInTable.setFrequency (hz : BitVec 32) : EncodesInTable.Statement (.setFrequency hz) := ⟨encode_op _, rfl⟩

theorem EncodesInTable.setSpreadingFactor (sf : Int) : EncodesInTable.Statement (.setSpreadingFactor sf) := ⟨encode_op _, rfl⟩

theorem EncodesInTable.setBandwidth (index : Int) : EncodesInTable.Statement (.setBandwidth index) := ⟨encode_op _, rfl⟩

theorem EncodesInTable.setCodingRate (denominator : Int) : EncodesInTable.Statement (.setCodingRate denominator) := ⟨encode_op _, rfl⟩

theorem EncodesInTable.setPreambleLength (length : BitVec 16) : EncodesInTable.Statement (.setPreambleLength length) := ⟨encode_op _, rfl⟩

theorem EncodesInTable.setSyncWord (word : Byte) : EncodesInTable.Statement (.setSyncWord word) := ⟨encode_op _, rfl⟩

theorem EncodesInTable.setCrc (enable : Bool) : EncodesInTable.Statement (.setCrc enable) := ⟨encode_op _, rfl⟩

theorem EncodesInTable.setTxPower (level : Int) : EncodesInTable.Statement (.setTxPower level) := ⟨encode_op _, rfl⟩

theorem EncodesInTable.setDioMapping (pin : Byte) (mode : Int) : EncodesInTable.Statement (.setDioMapping pin mode) := ⟨encode_op _, rfl⟩

theorem EncodesInTable.getFrequency : EncodesInTable.Statement .getFrequency := ⟨encode_op _, rfl⟩

theorem EncodesInTable.getSpreadingFactor : EncodesInTable.Statement .getSpreadingFactor := ⟨encode_op _, rfl⟩

theorem EncodesInTable.getBandwidth : EncodesInTable.Statement .getBandwidth := ⟨encode_op _, rfl⟩

theorem EncodesInTable.getCodingRate : EncodesInTable.Statement .getCodingRate := ⟨encode_op _, rfl⟩

theorem EncodesInTable.getPreambleLength : EncodesInTable.Statement .getPreambleLength := ⟨encode_op _, rfl⟩

theorem EncodesInTable.getSyncWord : EncodesInTable.Statement .getSyncWord := ⟨encode_op _, rfl⟩

theorem EncodesInTable.getCrc : EncodesInTable.Statement .getCrc := ⟨encode_op _, rfl⟩

theorem EncodesInTable.getTxPower : EncodesInTable.Statement .getTxPower := ⟨encode_op _, rfl⟩

theorem EncodesInTable.getDioMapping (pin : Byte) : EncodesInTable.Statement (.getDioMapping pin) := ⟨encode_op _, rfl⟩

theorem EncodesInTable.modeSleep : EncodesInTable.Statement .modeSleep := ⟨encode_op _, rfl⟩

theorem EncodesInTable.modeStandby : EncodesInTable.Statement .modeStandby := ⟨encode_op _, rfl⟩

theorem EncodesInTable.modeReceive : EncodesInTable.Statement .modeReceive := ⟨encode_op _, rfl⟩

theorem EncodesInTable.modeTransmit : EncodesInTable.Statement .modeTransmit := ⟨encode_op _, rfl⟩

theorem EncodesInTable.setExplicitHeader : EncodesInTable.Statement .setExplicitHeader := ⟨encode_op _, rfl⟩

theorem EncodesInTable.setImplicitHeader (size : Byte) : EncodesInTable.Statement (.setImplicitHeader size) := ⟨encode_op _, rfl⟩

theorem EncodesInTable.sendPacket (len : BitVec lenBits) : EncodesInTable.Statement (.sendPacket len) := ⟨encode_op _, rfl⟩

theorem EncodesInTable.receivePacket (capacity : BitVec 32) : EncodesInTable.Statement (.receivePacket capacity) := ⟨encode_op _, rfl⟩

theorem EncodesInTable.pollReceived : EncodesInTable.Statement .pollReceived := ⟨encode_op _, rfl⟩

theorem EncodesInTable.getIrqFlags : EncodesInTable.Statement .getIrqFlags := ⟨encode_op _, rfl⟩

theorem EncodesInTable.packetLostCount : EncodesInTable.Statement .packetLostCount := ⟨encode_op _, rfl⟩

theorem EncodesInTable.packetRssi : EncodesInTable.Statement .packetRssi := ⟨encode_op _, rfl⟩

theorem EncodesInTable.packetSnr : EncodesInTable.Statement .packetSnr := ⟨encode_op _, rfl⟩

theorem EncodesInTable.dumpRegisters : EncodesInTable.Statement .dumpRegisters := ⟨encode_op _, rfl⟩

end Sys2Proof.Laws
end

