-- ==== Sys2Proof/Laws/State.lean ====
section
/-! SUPPORT. One lemma per field per update of the state, each true by definition. -/

namespace Sys2Proof.Machine

@[simp] theorem State.transact_config (s : State) (op : Op) : (s.transact op).config = s.config := rfl

@[simp] theorem State.transact_radio (s : State) (op : Op) : (s.transact op).radio = s.radio := rfl

@[simp] theorem State.transact_seq (s : State) (op : Op) : (s.transact op).seq = { s.seq with step := s.seq.step + 1, answers := s.seq.answers ++ [s.reply op] } := rfl

@[simp] theorem State.transact_inputs (s : State) (op : Op) : (s.transact op).inputs = s.inputs := rfl

@[simp] theorem State.transact_responses (s : State) (op : Op) : (s.transact op).responses = s.responses := rfl

@[simp] theorem State.transact_trace (s : State) (op : Op) : (s.transact op).trace = s.trace ++ [{ txn := op.onPort s.txbuf, answer := s.reply op }] := rfl

@[simp] theorem State.transact_env (s : State) (op : Op) : (s.transact op).env = s.env.next op := rfl

@[simp] theorem State.transact_txbuf (s : State) (op : Op) : (s.transact op).txbuf = s.txbuf := rfl

@[simp] theorem State.transact_rxbuf (s : State) (op : Op) : (s.transact op).rxbuf = s.rxbuf := rfl

@[simp] theorem State.transact_dumpbuf (s : State) (op : Op) : (s.transact op).dumpbuf = s.dumpbuf := rfl

@[simp] theorem State.apply_config (s : State) (u : Upd) : (s.apply u).config = s.config := rfl

@[simp] theorem State.apply_radio (s : State) (u : Upd) : (s.apply u).radio = u.onRadio s.radio := rfl

@[simp] theorem State.apply_seq (s : State) (u : Upd) : (s.apply u).seq = u.onSeq s.seq := rfl

@[simp] theorem State.apply_inputs (s : State) (u : Upd) : (s.apply u).inputs = s.inputs := rfl

@[simp] theorem State.apply_responses (s : State) (u : Upd) : (s.apply u).responses = s.responses := rfl

@[simp] theorem State.apply_trace (s : State) (u : Upd) : (s.apply u).trace = s.trace := rfl

@[simp] theorem State.apply_env (s : State) (u : Upd) : (s.apply u).env = s.env := rfl

@[simp] theorem State.apply_txbuf (s : State) (u : Upd) : (s.apply u).txbuf = s.txbuf := rfl

@[simp] theorem State.apply_rxbuf (s : State) (u : Upd) : (s.apply u).rxbuf = u.onRxbuf s.env.count s.rxbuf := rfl

@[simp] theorem State.apply_dumpbuf (s : State) (u : Upd) : (s.apply u).dumpbuf = u.onDumpbuf s.dumpbuf := rfl

@[simp] theorem State.deliver_config (s : State) (st : Status) (d : Word) : (s.deliver st d).config = s.config := rfl

@[simp] theorem State.deliver_radio (s : State) (st : Status) (d : Word) : (s.deliver st d).radio = s.radio := rfl

@[simp] theorem State.deliver_seq (s : State) (st : Status) (d : Word) : (s.deliver st d).seq = Seq.idle := rfl

@[simp] theorem State.deliver_inputs (s : State) (st : Status) (d : Word) : (s.deliver st d).inputs = s.inputs := rfl

@[simp] theorem State.deliver_responses (s : State) (st : Status) (d : Word) : (s.deliver st d).responses = s.responses ++ [{ status := st, data := d }] := rfl

@[simp] theorem State.deliver_trace (s : State) (st : Status) (d : Word) : (s.deliver st d).trace = s.trace := rfl

@[simp] theorem State.deliver_env (s : State) (st : Status) (d : Word) : (s.deliver st d).env = s.env := rfl

@[simp] theorem State.deliver_txbuf (s : State) (st : Status) (d : Word) : (s.deliver st d).txbuf = s.txbuf := rfl

@[simp] theorem State.deliver_rxbuf (s : State) (st : Status) (d : Word) : (s.deliver st d).rxbuf = s.rxbuf := rfl

@[simp] theorem State.deliver_dumpbuf (s : State) (st : Status) (d : Word) : (s.deliver st d).dumpbuf = s.dumpbuf := rfl

@[simp] theorem State.accept_config (s : State) (w : Cmd48) : (s.accept w).config = s.config := rfl

@[simp] theorem State.accept_radio (s : State) (w : Cmd48) : (s.accept w).radio = s.radio := rfl

@[simp] theorem State.accept_seq (s : State) (w : Cmd48) : (s.accept w).seq = { busy := true, cmd := w, step := 0, iter := 0, pending := .ok, entry := s.radio, answers := [] } := rfl

@[simp] theorem State.accept_inputs (s : State) (w : Cmd48) : (s.accept w).inputs = s.inputs := rfl

@[simp] theorem State.accept_responses (s : State) (w : Cmd48) : (s.accept w).responses = s.responses := rfl

@[simp] theorem State.accept_trace (s : State) (w : Cmd48) : (s.accept w).trace = s.trace := rfl

@[simp] theorem State.accept_env (s : State) (w : Cmd48) : (s.accept w).env = s.env := rfl

@[simp] theorem State.accept_txbuf (s : State) (w : Cmd48) : (s.accept w).txbuf = s.txbuf := rfl

@[simp] theorem State.accept_rxbuf (s : State) (w : Cmd48) : (s.accept w).rxbuf = s.rxbuf := rfl

@[simp] theorem State.accept_dumpbuf (s : State) (w : Cmd48) : (s.accept w).dumpbuf = s.dumpbuf := rfl

@[simp] theorem State.popInput_config (s : State) : (s.popInput).config = s.config := rfl

@[simp] theorem State.popInput_radio (s : State) : (s.popInput).radio = s.radio := rfl

@[simp] theorem State.popInput_seq (s : State) : (s.popInput).seq = s.seq := rfl

@[simp] theorem State.popInput_inputs (s : State) : (s.popInput).inputs = s.inputs.tail := rfl

@[simp] theorem State.popInput_responses (s : State) : (s.popInput).responses = s.responses := rfl

@[simp] theorem State.popInput_trace (s : State) : (s.popInput).trace = s.trace := rfl

@[simp] theorem State.popInput_env (s : State) : (s.popInput).env = s.env := rfl

@[simp] theorem State.popInput_txbuf (s : State) : (s.popInput).txbuf = s.txbuf := rfl

@[simp] theorem State.popInput_rxbuf (s : State) : (s.popInput).rxbuf = s.rxbuf := rfl

@[simp] theorem State.popInput_dumpbuf (s : State) : (s.popInput).dumpbuf = s.dumpbuf := rfl

@[simp] theorem State.loadTx_config (s : State) (data : List Byte) : (s.loadTx data).config = s.config := rfl

@[simp] theorem State.loadTx_radio (s : State) (data : List Byte) : (s.loadTx data).radio = s.radio := rfl

@[simp] theorem State.loadTx_seq (s : State) (data : List Byte) : (s.loadTx data).seq = s.seq := rfl

@[simp] theorem State.loadTx_inputs (s : State) (data : List Byte) : (s.loadTx data).inputs = s.inputs := rfl

@[simp] theorem State.loadTx_responses (s : State) (data : List Byte) : (s.loadTx data).responses = s.responses := rfl

@[simp] theorem State.loadTx_trace (s : State) (data : List Byte) : (s.loadTx data).trace = s.trace := rfl

@[simp] theorem State.loadTx_env (s : State) (data : List Byte) : (s.loadTx data).env = s.env := rfl

@[simp] theorem State.loadTx_txbuf (s : State) (data : List Byte) : (s.loadTx data).txbuf = Memory.writeFrom s.txbuf 0 (data.take 255) := rfl

@[simp] theorem State.loadTx_rxbuf (s : State) (data : List Byte) : (s.loadTx data).rxbuf = s.rxbuf := rfl

@[simp] theorem State.loadTx_dumpbuf (s : State) (data : List Byte) : (s.loadTx data).dumpbuf = s.dumpbuf := rfl

@[simp] theorem State.hardReset_config (s : State) : (s.hardReset).config = s.config := rfl

@[simp] theorem State.hardReset_radio (s : State) : (s.hardReset).radio = Radio.reset := rfl

@[simp] theorem State.hardReset_seq (s : State) : (s.hardReset).seq = Seq.idle := rfl

@[simp] theorem State.hardReset_inputs (s : State) : (s.hardReset).inputs = s.inputs := rfl

@[simp] theorem State.hardReset_responses (s : State) : (s.hardReset).responses = s.responses := rfl

@[simp] theorem State.hardReset_trace (s : State) : (s.hardReset).trace = s.trace := rfl

@[simp] theorem State.hardReset_env (s : State) : (s.hardReset).env = s.env := rfl

@[simp] theorem State.hardReset_txbuf (s : State) : (s.hardReset).txbuf = s.txbuf := rfl

@[simp] theorem State.hardReset_rxbuf (s : State) : (s.hardReset).rxbuf = s.rxbuf := rfl

@[simp] theorem State.hardReset_dumpbuf (s : State) : (s.hardReset).dumpbuf = s.dumpbuf := rfl

@[simp] theorem State.completed_config (s : State) (ops : List Op) (st : Status) (d : Word) : (s.completed ops st d).config = s.config := rfl

@[simp] theorem State.completed_radio (s : State) (ops : List Op) (st : Status) (d : Word) : (s.completed ops st d).radio = s.radio := rfl

@[simp] theorem State.completed_seq (s : State) (ops : List Op) (st : Status) (d : Word) : (s.completed ops st d).seq = Seq.idle := rfl

@[simp] theorem State.completed_inputs (s : State) (ops : List Op) (st : Status) (d : Word) : (s.completed ops st d).inputs = s.inputs := rfl

@[simp] theorem State.completed_responses (s : State) (ops : List Op) (st : Status) (d : Word) : (s.completed ops st d).responses = s.responses ++ [{ status := st, data := d }] := rfl

@[simp] theorem State.completed_trace (s : State) (ops : List Op) (st : Status) (d : Word) : (s.completed ops st d).trace = s.trace ++ s.entriesOf ops := rfl

@[simp] theorem State.completed_env (s : State) (ops : List Op) (st : Status) (d : Word) : (s.completed ops st d).env = s.env.after ops := rfl

@[simp] theorem State.completed_txbuf (s : State) (ops : List Op) (st : Status) (d : Word) : (s.completed ops st d).txbuf = s.txbuf := rfl

@[simp] theorem State.completed_rxbuf (s : State) (ops : List Op) (st : Status) (d : Word) : (s.completed ops st d).rxbuf = s.rxbuf := rfl

@[simp] theorem State.completed_dumpbuf (s : State) (ops : List Op) (st : Status) (d : Word) : (s.completed ops st d).dumpbuf = s.dumpbuf := rfl

@[simp] theorem State.withMode_config (s : State) (m : Mode) : (s.withMode m).config = s.config := rfl

@[simp] theorem State.withMode_radio (s : State) (m : Mode) : (s.withMode m).radio = { s.radio with operatingMode := m } := rfl

@[simp] theorem State.withMode_seq (s : State) (m : Mode) : (s.withMode m).seq = s.seq := rfl

@[simp] theorem State.withMode_inputs (s : State) (m : Mode) : (s.withMode m).inputs = s.inputs := rfl

@[simp] theorem State.withMode_responses (s : State) (m : Mode) : (s.withMode m).responses = s.responses := rfl

@[simp] theorem State.withMode_trace (s : State) (m : Mode) : (s.withMode m).trace = s.trace := rfl

@[simp] theorem State.withMode_env (s : State) (m : Mode) : (s.withMode m).env = s.env := rfl

@[simp] theorem State.withMode_txbuf (s : State) (m : Mode) : (s.withMode m).txbuf = s.txbuf := rfl

@[simp] theorem State.withMode_rxbuf (s : State) (m : Mode) : (s.withMode m).rxbuf = s.rxbuf := rfl

@[simp] theorem State.withMode_dumpbuf (s : State) (m : Mode) : (s.withMode m).dumpbuf = s.dumpbuf := rfl

end Sys2Proof.Machine
end

