-- ==== Sys2Proof/Laws/Prog.lean ====
section
/-! SUPPORT. What the shared operations can do: the shape of an answer, what running a command's pseudocode leaves alone, and one equation
per primitive. -/

namespace Sys2Proof.Machine

/-! ## Answers -/

theorem answerData_length (count n : Nat) (data : List Byte) : (answerData count n data).length = n := by
  simp [answerData]

/-- An `ok` answer carries exactly the data the primitive asks for (R70 to R74). -/
theorem Env.reply_data_length {e : Env} {op : Op} {data : List Byte} (h : e.reply op = .ok data) : data.length = op.dataLength := by
  unfold Env.reply at h
  split at h
  · split at h
    · cases h
    · cases h; exact answerData_length _ _ _
    · split at h
      · cases h; exact answerData_length _ _ _
      · cases h
  · rename_i hop
    cases h
    cases op <;> simp_all [Op.isAnswered, Op.dataLength]

/-- A scripted answer that carries the right number of bytes reaches the RCE as it is. -/
theorem answerData_exact (count : Nat) (data : List Byte) : answerData count data.length data = data := by
  apply List.ext_getElem
  · simp [answerData]
  · intro i h1 h2
    simp [answerData, List.getD_eq_getElem?_getD, List.getElem?_eq_getElem h2]

theorem Env.reply_scripted_ok {e : Env} {op : Op} {data : List Byte} {rest : List Answer} (hs : e.script = .ok data :: rest)
    (ha : op.isAnswered = true) (hl : data.length = op.dataLength) : e.reply op = .ok data := by
  simp only [Env.reply, ha, if_true, hs, ← hl, answerData_exact]

theorem Env.reply_scripted_fail {e : Env} {op : Op} {rest : List Answer} (hs : e.script = .fail :: rest)
    (ha : op.isAnswered = true) : e.reply op = .fail := by
  simp [Env.reply, ha, hs]

/-- A write is answered `fail` or `ok` without data (R71). -/
theorem State.reply_write (s : State) (a : Addr) (v : Byte) : s.reply (.write a v) = .fail ∨ s.reply (.write a v) = .ok [] := by
  cases h : s.reply (.write a v) with
  | fail => exact .inl rfl
  | ok data => exact .inr (by rw [List.length_eq_zero_iff.mp (Env.reply_data_length h)])

/-- A bus initialization is answered `fail` or `ok` without data (R70). -/
theorem State.reply_busInit (s : State) : s.reply .busInit = .fail ∨ s.reply .busInit = .ok [] := by
  cases h : s.reply .busInit with
  | fail => exact .inl rfl
  | ok data => exact .inr (by rw [List.length_eq_zero_iff.mp (Env.reply_data_length h)])

/-- A read is answered `fail` or `ok` with one byte (R72). -/
theorem State.reply_read (s : State) (a : Addr) : s.reply (.read a) = .fail ∨ ∃ b, s.reply (.read a) = .ok [b] := by
  cases h : s.reply (.read a) with
  | fail => exact .inl rfl
  | ok data =>
    obtain ⟨b, hb⟩ := List.length_eq_one_iff.mp (Env.reply_data_length h)
    exact .inr ⟨b, by rw [hb]⟩

/-- A burst write is answered `fail` or `ok` without data (R73). -/
theorem State.reply_burstWrite (s : State) (a : Addr) (n : Nat) :
    s.reply (.burstWrite a n) = .fail ∨ s.reply (.burstWrite a n) = .ok [] := by
  cases h : s.reply (.burstWrite a n) with
  | fail => exact .inl rfl
  | ok data => exact .inr (by rw [List.length_eq_zero_iff.mp (Env.reply_data_length h)])

/-- A burst read is answered `fail` or `ok` with `n` bytes (R74). -/
theorem State.reply_burstRead (s : State) (a : Addr) (n : Nat) :
    s.reply (.burstRead a n) = .fail ∨ ∃ data, s.reply (.burstRead a n) = .ok data ∧ data.length = n := by
  cases h : s.reply (.burstRead a n) with
  | fail => exact .inl rfl
  | ok data => exact .inr ⟨data, rfl, Env.reply_data_length h⟩

/-- A delay cannot fail (R76). -/
@[simp] theorem State.reply_delay (s : State) (ms : Nat) : s.reply (.delay ms) = .ok [] := rfl

/-! ## Operations issued in order -/

@[simp] theorem Env.replies_nil (e : Env) : e.replies [] = [] := rfl

@[simp] theorem Env.replies_cons (e : Env) (op : Op) (ops : List Op) :
    e.replies (op :: ops) = e.reply op :: (e.next op).replies ops := rfl

@[simp] theorem Env.after_nil (e : Env) : e.after [] = e := rfl

@[simp] theorem Env.after_cons (e : Env) (op : Op) (ops : List Op) : e.after (op :: ops) = (e.next op).after ops := rfl

@[simp] theorem State.entriesOf_nil (s : State) : s.entriesOf [] = [] := rfl

@[simp] theorem State.entriesOf_cons (s : State) (op : Op) (ops : List Op) :
    s.entriesOf (op :: ops) = { txn := op.onPort s.txbuf, answer := s.reply op } :: (s.transact op).entriesOf ops := rfl

/-- Issue operations one after another, with nothing between them. -/
def State.issueAll (s : State) : List Op → State
  | [] => s
  | op :: ops => (s.transact op).issueAll ops

/-- Delivering after a list of operations leaves the completed state. -/
theorem State.issueAll_deliver (s : State) (ops : List Op) (st : Status) (d : Word) :
    (s.issueAll ops).deliver st d = s.completed ops st d := by
  induction ops generalizing s with
  | nil => simp [State.issueAll, State.deliver, State.completed]
  | cons op ops ih =>
    rw [State.issueAll, ih]
    simp [State.completed, State.transact, State.reply, State.entriesOf]

theorem Env.after_append (e : Env) (xs ys : List Op) : e.after (xs ++ ys) = (e.after xs).after ys := by
  induction xs generalizing e with
  | nil => rfl
  | cons x xs ih => exact ih _

theorem Env.replies_append (e : Env) (xs ys : List Op) : e.replies (xs ++ ys) = e.replies xs ++ (e.after xs).replies ys := by
  induction xs generalizing e with
  | nil => rfl
  | cons x xs ih => simp [ih]

theorem State.issueAll_append (s : State) (xs ys : List Op) : s.issueAll (xs ++ ys) = (s.issueAll xs).issueAll ys := by
  induction xs generalizing s with
  | nil => rfl
  | cons x xs ih => exact ih _

/-! ## One equation per primitive -/

theorem regWriteElse_run (f : Prog) (a : Addr) (v : Byte) (k : Prog) (s : State) :
    (regWriteElse f a v k).run s =
      (match s.reply (.write a v) with
        | .ok _ => k
        | .fail => f).run (s.transact (.write a v)) := rfl

theorem regReadElse_run (f : Prog) (a : Addr) (k : Byte → Prog) (s : State) :
    (regReadElse f a k).run s =
      (match s.reply (.read a) with
        | .ok data => k (data.headD 0)
        | .fail => f).run (s.transact (.read a)) := rfl

theorem raise_run (st : Status) (s : State) : (raise st).run s = s.deliver st 0 := rfl

/-- `RegWrite(a, v)`: it goes on, or raises `REG_WRITE_FAILED` (R71). -/
theorem regWrite_run (a : Addr) (v : Byte) (k : Prog) (s : State) :
    (s.reply (.write a v) = .ok [] ∧ (regWrite a v k).run s = k.run (s.transact (.write a v))) ∨
      (s.reply (.write a v) = .fail ∧ (regWrite a v k).run s = (s.transact (.write a v)).deliver .regWriteFailed 0) := by
  rcases s.reply_write a v with h | h
  · exact .inr ⟨h, by simp [regWrite, regWriteElse_run, h, raise_run]⟩
  · exact .inl ⟨h, by simp [regWrite, regWriteElse_run, h]⟩

/-- `RegRead(a)`: it goes on with the byte read, or raises `REG_READ_FAILED` (R72). -/
theorem regRead_run (a : Addr) (k : Byte → Prog) (s : State) :
    (∃ b, s.reply (.read a) = .ok [b] ∧ (regRead a k).run s = (k b).run (s.transact (.read a))) ∨
      (s.reply (.read a) = .fail ∧ (regRead a k).run s = (s.transact (.read a)).deliver .regReadFailed 0) := by
  rcases s.reply_read a with h | ⟨b, h⟩
  · exact .inr ⟨h, by simp [regRead, regReadElse_run, h, raise_run]⟩
  · exact .inl ⟨b, h, by simp [regRead, regReadElse_run, h]⟩

/-! ## What every command leaves alone, and what it adds -/

/-- Running a command's pseudocode delivers exactly one response, adds to the trace, leaves the sequencer idle, and touches neither the
parameters, nor the host's moves, nor `txbuf`. -/
theorem Prog.run_frame (p : Prog) (s : State) :
    (∃ r, (p.run s).responses = s.responses ++ [r]) ∧ (∃ es, (p.run s).trace = s.trace ++ es) ∧ (p.run s).seq = Seq.idle ∧
      (p.run s).config = s.config ∧ (p.run s).inputs = s.inputs ∧ (p.run s).txbuf = s.txbuf := by
  induction p generalizing s with
  | respond st d => exact ⟨⟨_, rfl⟩, ⟨[], by simp [Prog.run]⟩, rfl, rfl, rfl, rfl⟩
  | respondPending => exact ⟨⟨_, rfl⟩, ⟨[], by simp [Prog.run]⟩, rfl, rfl, rfl, rfl⟩
  | issue op k ih =>
    obtain ⟨hr, ⟨es, he⟩, h⟩ := ih (s.reply op) (s.transact op)
    refine ⟨hr, ⟨{ txn := op.onPort s.txbuf, answer := s.reply op } :: es, ?_⟩, h⟩
    rw [Prog.run, he]
    simp
  | update u p ih => exact ih (s.apply u)
  | ask k ih => exact ih s.radio s

/-- Every meaning runs its command's pseudocode. -/
theorem exec_eq_run (i : Instr) (s : State) : exec i s = .next ((program s.config i).run s) := by
  cases i <;> rfl

end Sys2Proof.Machine
end

