-- ==== Sys2Proof/Laws/Sequence.lean ====
section
/-! SUPPORT. Operations issued in order, and the state a command leaves behind: how `completed` grows by a transaction, and what the
primitives do once their answer is known. -/

namespace Sys2Proof.Machine

/-! ## The completed state -/

theorem State.deliver_eq_completed (s : State) (st : Status) (d : Word) : s.deliver st d = s.completed [] st d :=
  s.issueAll_deliver [] st d

theorem State.completed_transact (s : State) (op : Op) (ops : List Op) (st : Status) (d : Word) :
    (s.transact op).completed ops st d = s.completed (op :: ops) st d := by
  rw [← State.issueAll_deliver, ← State.issueAll_deliver]
  rfl

theorem State.completed_issueAll (s : State) (xs ys : List Op) (st : Status) (d : Word) :
    (s.issueAll xs).completed ys st d = s.completed (xs ++ ys) st d := by
  induction xs generalizing s with
  | nil => rfl
  | cons x xs ih =>
    rw [List.cons_append, ← State.completed_transact, ← ih]
    rfl

/-- The sequencer's own fields leave no trace in a completed state. -/
theorem State.completed_withSeq (s : State) (q : Seq) (ops : List Op) (st : Status) (d : Word) :
    ({ s with seq := q }).completed ops st d = s.completed ops st d := rfl

/-! ## Operations in order -/

theorem State.issueAll_env (s : State) (ops : List Op) : (s.issueAll ops).env = s.env.after ops := by
  induction ops generalizing s with
  | nil => rfl
  | cons op ops ih => exact ih _

theorem State.setMode_eq (s : State) (m : Mode) : s.apply (.setMode m) = s.withMode m := rfl

theorem State.withMode_transact (s : State) (op : Op) (m : Mode) : (s.transact op).withMode m = (s.withMode m).transact op := rfl

theorem State.withMode_issueAll (s : State) (ops : List Op) (m : Mode) : (s.issueAll ops).withMode m = (s.withMode m).issueAll ops := by
  induction ops generalizing s with
  | nil => rfl
  | cons op ops ih => exact ih _

theorem State.countLost_issueAll (s : State) (ops : List Op) :
    (s.issueAll ops).apply .countLost = (s.apply .countLost).issueAll ops := by
  induction ops generalizing s with
  | nil => rfl
  | cons op ops ih => exact ih _

theorem Env.replies_length (e : Env) (ops : List Op) : (e.replies ops).length = ops.length := by
  induction ops generalizing e with
  | nil => rfl
  | cons x xs ih => simp [ih]

/-- Answers to a joined list of operations, taken apart. -/
theorem Env.replies_split {e : Env} {xs ys : List Op} {as bs : List Answer} (hl : as.length = xs.length)
    (h : e.replies (xs ++ ys) = as ++ bs) : e.replies xs = as ∧ (e.after xs).replies ys = bs := by
  rw [Env.replies_append] at h
  exact List.append_inj h (by rw [Env.replies_length, hl])

theorem pollRounds_length (c : Config) (n : Nat) : (pollRounds c n).length = 2 * n := by
  induction n with
  | zero => rfl
  | succ n ih => simp [pollRounds, ih]; omega

theorem versionRounds_length (c : Config) (n : Nat) : (versionRounds c n).length = 2 * n := by
  induction n with
  | zero => rfl
  | succ n ih => simp [versionRounds, ih]; omega

theorem roundAnswers_length (vs : List Byte) : (roundAnswers vs).length = 2 * vs.length := by
  induction vs with
  | nil => rfl
  | cons v vs ih => simp [roundAnswers] at *; omega

/-! ## The primitives, their answer known -/

theorem run_respond (st : Status) (d : Word) (s : State) : (Prog.respond st d).run s = s.deliver st d := rfl

theorem run_update (u : Upd) (p : Prog) (s : State) : (Prog.update u p).run s = p.run (s.apply u) := rfl

theorem run_ask (k : Radio → Prog) (s : State) : (Prog.ask k).run s = (k s.radio).run s := rfl

theorem regWriteElse_ok {f k : Prog} {a : Addr} {v : Byte} {s : State} {d : List Byte} (h : s.env.reply (.write a v) = .ok d) :
    (regWriteElse f a v k).run s = k.run (s.transact (.write a v)) := by
  simp [regWriteElse_run, State.reply, h]

theorem regWriteElse_fail {f k : Prog} {a : Addr} {v : Byte} {s : State} (h : s.env.reply (.write a v) = .fail) :
    (regWriteElse f a v k).run s = f.run (s.transact (.write a v)) := by
  simp [regWriteElse_run, State.reply, h]

theorem regReadElse_ok {f : Prog} {a : Addr} {k : Byte → Prog} {s : State} {v : Byte} (h : s.env.reply (.read a) = .ok [v]) :
    (regReadElse f a k).run s = (k v).run (s.transact (.read a)) := by
  simp [regReadElse_run, State.reply, h]

theorem regReadElse_fail {f : Prog} {a : Addr} {k : Byte → Prog} {s : State} (h : s.env.reply (.read a) = .fail) :
    (regReadElse f a k).run s = f.run (s.transact (.read a)) := by
  simp [regReadElse_run, State.reply, h]

theorem delay_run (ms : Nat) (k : Prog) (s : State) : (delay ms k).run s = k.run (s.transact (.delay ms)) := rfl

theorem busInit_ok {k : Prog} {s : State} {d : List Byte} (h : s.env.reply .busInit = .ok d) :
    (busInit k).run s = k.run (s.transact .busInit) := by
  simp [busInit, Prog.run, State.reply, h]

theorem busInit_fail {k : Prog} {s : State} (h : s.env.reply .busInit = .fail) :
    (busInit k).run s = (s.transact .busInit).deliver .busInitFailed 0 := by
  simp [busInit, Prog.run, State.reply, h, raise]

theorem burstWriteElse_zero {f k : Prog} {a : Addr} {next : Nat} {s : State} :
    (burstWriteElse f a 0 next k).run s = k.run (s.apply (.goto next)) := rfl

theorem burstWriteElse_ok {f k : Prog} {a : Addr} {n next : Nat} {s : State} {d : List Byte} (hn : n ≠ 0)
    (h : s.env.reply (.burstWrite a n) = .ok d) :
    (burstWriteElse f a n next k).run s = k.run (s.transact (.burstWrite a n)) := by
  simp [burstWriteElse, hn, Prog.run, State.reply, h]

theorem burstWriteElse_fail {f k : Prog} {a : Addr} {n next : Nat} {s : State} (hn : n ≠ 0)
    (h : s.env.reply (.burstWrite a n) = .fail) :
    (burstWriteElse f a n next k).run s = f.run (s.transact (.burstWrite a n)) := by
  simp [burstWriteElse, hn, Prog.run, State.reply, h]

theorem burstRead_zero {k : Prog} {a : Addr} {next : Nat} {s : State} :
    (burstRead a 0 next k).run s = k.run (s.apply (.goto next)) := rfl

theorem burstRead_ok {k : Prog} {a : Addr} {n next : Nat} {s : State} {d : List Byte} (hn : n ≠ 0)
    (h : s.env.reply (.burstRead a n) = .ok d) :
    (burstRead a n next k).run s = k.run ((s.transact (.burstRead a n)).apply (.storeRx d)) := by
  simp [burstRead, hn, Prog.run, State.reply, h]

theorem burstRead_fail {k : Prog} {a : Addr} {n next : Nat} {s : State} (hn : n ≠ 0)
    (h : s.env.reply (.burstRead a n) = .fail) :
    (burstRead a n next k).run s = ((s.transact (.burstRead a n)).apply (.spoilRx n)).deliver .bufReadFailed 0 := by
  simp [burstRead, hn, Prog.run, State.reply, h, raise]

end Sys2Proof.Machine
end

