-- ==== Sys2Proof/Laws/Sequencer.lean ====
section
/-! SUPPORT. The sequencer one transaction at a time: what settling leaves alone, and what is left of a command after an answer. -/

namespace Sys2Proof.Machine

/-- RadioState after a command's pseudocode has had these answers and stands at its next transaction or its response. -/
def Prog.radioAfter : Prog → Radio → List Answer → Radio
  | .respond _ _, r, _ => r
  | .respondPending, r, _ => r
  | .issue _ _, r, [] => r
  | .issue _ k, r, a :: as => (k a).radioAfter r as
  | .update u p, r, as => p.radioAfter (u.onRadio r) as
  | .ask k, r, as => (k r).radioAfter r as

/-- One more answer: what is left, and RadioState. -/
theorem Prog.remaining_snoc (p : Prog) (r : Radio) (as : List Answer) (op : Op) (k : Answer → Prog)
    (h : p.remaining r as = .issue op k) (a : Answer) :
    p.remaining r (as ++ [a]) = (k a).remaining (p.radioAfter r as) [] ∧
      p.radioAfter r (as ++ [a]) = (k a).radioAfter (p.radioAfter r as) [] := by
  induction p generalizing r as with
  | respond st d => simp [Prog.remaining] at h
  | respondPending => simp [Prog.remaining] at h
  | issue op' k' ih =>
    cases as with
    | nil =>
      simp only [Prog.remaining, Prog.issue.injEq] at h
      obtain ⟨rfl, rfl⟩ := h
      exact ⟨rfl, rfl⟩
    | cons b as => exact ih b r as h
  | update u p ih => exact ih _ as h
  | ask k' ih => exact ih _ _ as h

/-- What is left of a command begins with its response or with a transaction. -/
theorem Prog.remaining_normal (p : Prog) (r : Radio) (as : List Answer) :
    (∃ st d, p.remaining r as = .respond st d) ∨ p.remaining r as = .respondPending ∨ ∃ op k, p.remaining r as = .issue op k := by
  induction p generalizing r as with
  | respond st d => exact .inl ⟨_, _, rfl⟩
  | respondPending => exact .inr (.inl rfl)
  | issue op k ih =>
    cases as with
    | nil => exact .inr (.inr ⟨_, _, rfl⟩)
    | cons a as => exact ih a r as
  | update u p ih => exact ih _ _
  | ask k ih => exact ih _ _ _

theorem Prog.settle_radio (p : Prog) (s : State) : (p.settle s).radio = p.radioAfter s.radio [] := by
  induction p generalizing s with
  | update u p ih => exact ih _
  | ask k ih => exact ih _ _
  | _ => rfl

/-- Settling makes updates only: no transaction, no response, and the sequencer's latched word, entry and answers stay. -/
theorem Prog.settle_frame (p : Prog) (s : State) :
    (p.settle s).seq.busy = s.seq.busy ∧ (p.settle s).seq.cmd = s.seq.cmd ∧ (p.settle s).seq.entry = s.seq.entry ∧
      (p.settle s).seq.answers = s.seq.answers ∧ (p.settle s).config = s.config ∧ (p.settle s).trace = s.trace ∧
      (p.settle s).responses = s.responses ∧ (p.settle s).env = s.env ∧ (p.settle s).inputs = s.inputs ∧
      (p.settle s).txbuf = s.txbuf := by
  induction p generalizing s with
  | update u p ih =>
    have h := ih (s.apply u)
    simp only [State.apply_seq, State.apply_config, State.apply_trace, State.apply_responses, State.apply_env, State.apply_inputs,
      State.apply_txbuf] at h
    have e : (u.onSeq s.seq).busy = s.seq.busy ∧ (u.onSeq s.seq).cmd = s.seq.cmd ∧ (u.onSeq s.seq).entry = s.seq.entry ∧
        (u.onSeq s.seq).answers = s.seq.answers := by cases u <;> exact ⟨rfl, rfl, rfl, rfl⟩
    rw [e.1, e.2.1, e.2.2.1, e.2.2.2] at h
    exact h
  | ask k ih => exact ih _ _
  | _ => exact ⟨rfl, rfl, rfl, rfl, rfl, rfl, rfl, rfl, rfl, rfl⟩

/-- Settling first and running what is left is running. -/
theorem Prog.run_settle (p : Prog) (s : State) : (p.remaining s.radio []).run (p.settle s) = p.run s := by
  induction p generalizing s with
  | update u p ih => exact ih (s.apply u)
  | ask k ih => exact ih _ _
  | _ => rfl

/-- RadioState is what the command in flight has made of it since acceptance. -/
def State.InStep (s : State) : Prop :=
  s.seq.busy = true ∧ s.radio = (wordProgram s.config s.seq.cmd).radioAfter s.seq.entry s.seq.answers

theorem State.acceptStep_inStep (s : State) (w : Cmd48) :
    (s.acceptStep w).InStep ∧ (s.acceptStep w).remaining = (wordProgram s.config w).remaining s.radio [] := by
  obtain ⟨h1, h2, h3, h4, h5, _⟩ := Prog.settle_frame (wordProgram s.config w) (s.accept w)
  refine ⟨⟨h1, ?_⟩, ?_⟩
  · show (Prog.settle _ _).radio = Prog.radioAfter (wordProgram (Prog.settle _ _).config (Prog.settle _ _).seq.cmd)
      (Prog.settle _ _).seq.entry (Prog.settle _ _).seq.answers
    rw [Prog.settle_radio, h2, h3, h4, h5]
    rfl
  · show Prog.remaining (wordProgram (Prog.settle _ _).config (Prog.settle _ _).seq.cmd) (Prog.settle _ _).seq.entry
      (Prog.settle _ _).seq.answers = _
    rw [h2, h3, h4, h5]
    rfl

/-- A tick whose next thing is a transaction issues it, settles, and leaves what the answer leads to. -/
theorem State.tick_issue (s : State) (hs : s.InStep) (op : Op) (k : Answer → Prog) (h : s.remaining = .issue op k) :
    s.tick = (k (s.reply op)).settle (s.transact op) ∧ s.tick.InStep ∧
      s.tick.remaining = (k (s.reply op)).remaining s.radio [] := by
  have e : s.tick = (k (s.reply op)).settle (s.transact op) := by simp only [State.tick, hs.1, if_true, h]
  obtain ⟨h1, h2, h3, h4, h5, _⟩ := Prog.settle_frame (k (s.reply op)) (s.transact op)
  have sn := Prog.remaining_snoc _ _ _ op k h (s.reply op)
  refine ⟨e, ⟨by rw [e, h1]; exact hs.1, ?_⟩, ?_⟩
  · rw [e, Prog.settle_radio, h2, h3, h4, h5]
    simp only [State.transact_radio, State.transact_seq, State.transact_config]
    rw [sn.2, ← hs.2]
  · rw [e]
    show Prog.remaining (wordProgram (Prog.settle _ _).config (Prog.settle _ _).seq.cmd) (Prog.settle _ _).seq.entry
      (Prog.settle _ _).seq.answers = _
    rw [h2, h3, h4, h5]
    simp only [State.transact_seq, State.transact_config]
    rw [sn.1, ← hs.2]

/-- An idle RCE takes no step. -/
theorem State.ticks_idle (n : Nat) {s : State} (h : s.seq.busy = false) : State.ticks n s = s := by
  induction n with
  | zero => rfl
  | succ n ih => rw [State.ticks, show s.tick = s by simp [State.tick, h], ih]

theorem State.ticks_add (m n : Nat) (s : State) : State.ticks (m + n) s = State.ticks n (State.ticks m s) := by
  induction m generalizing s with
  | zero => simp [State.ticks]
  | succ m ih => rw [Nat.succ_add]; exact ih s.tick

end Sys2Proof.Machine
end

