-- ==== Sys2Proof/Laws/Wp.lean ====
section
/-! SUPPORT. What a command's pseudocode can end in, whatever the environment answers: a weakest precondition over the transactions issued,
RadioState and the response, with one rule per primitive and per loop. -/

namespace Sys2Proof.Machine

/-- The answers the environment can give to an operation (R70 to R76). -/
def Op.Answers (op : Op) (a : Answer) : Prop :=
  (∃ data, a = .ok data ∧ data.length = op.dataLength) ∨ (a = .fail ∧ op.isAnswered = true)

theorem State.reply_answers (s : State) (op : Op) : op.Answers (s.reply op) := by
  cases h : s.reply op with
  | ok data => exact .inl ⟨data, rfl, Env.reply_data_length h⟩
  | fail =>
    refine .inr ⟨rfl, ?_⟩
    by_contra hc
    simp [State.reply, Env.reply, hc] at h

/-- Whatever is answered, `Q` holds of the transactions, of RadioState and of the response at the end; `tx` is `txbuf`, `es` what has been
issued so far, `p` the pending status. -/
def Prog.wp (tx : Memory) (Q : List Entry → Radio → Response → Prop) : Prog → List Entry → Radio → Status → Prop
  | .respond st d, es, r, _ => Q es r { status := st, data := d }
  | .respondPending, es, r, p => Q es r { status := p, data := 0 }
  | .issue op k, es, r, p => ∀ a, op.Answers a → (k a).wp tx Q (es ++ [{ txn := op.onPort tx, answer := a }]) r p
  | .update u q, es, r, p => q.wp tx Q es (u.onRadio r) (u.onSeq { Seq.idle with pending := p }).pending
  | .ask k, es, r, p => (k r).wp tx Q es r p

theorem Upd.onSeq_pending (u : Upd) (q : Seq) :
    (u.onSeq q).pending = (u.onSeq { Seq.idle with pending := q.pending }).pending := by
  cases u <;> rfl

theorem Prog.wp_run (Q : List Entry → Radio → Response → Prop) (p : Prog) (s : State) (es : List Entry)
    (h : p.wp s.txbuf Q es s.radio s.seq.pending) :
    ∃ es' r, (p.run s).trace = s.trace ++ es' ∧ (p.run s).responses = s.responses ++ [r] ∧ Q (es ++ es') (p.run s).radio r := by
  induction p generalizing s es with
  | respond st d => exact ⟨[], _, by simp [Prog.run], rfl, by rw [List.append_nil]; exact h⟩
  | respondPending => exact ⟨[], _, by simp [Prog.run], rfl, by rw [List.append_nil]; exact h⟩
  | issue op k ih =>
    obtain ⟨es', r, h1, h2, h3⟩ := ih (s.reply op) (s.transact op) _ (h (s.reply op) (s.reply_answers op))
    refine ⟨{ txn := op.onPort s.txbuf, answer := s.reply op } :: es', r, ?_, h2, ?_⟩
    · rw [Prog.run, h1]; simp
    · rw [List.append_assoc] at h3; exact h3
  | update u p ih =>
    have h' : p.wp s.txbuf Q es (u.onRadio s.radio) (u.onSeq s.seq).pending := by rw [Upd.onSeq_pending]; exact h
    exact ih (s.apply u) es h'
  | ask k ih => exact ih s.radio s es h

/-- What a command's pseudocode ensures holds of every state the command leads to. -/
theorem exec_wp {Q : List Entry → Radio → Response → Prop} {i : Instr} {s t : State} (he : exec i s = .next t)
    (h : (program s.config i).wp s.txbuf Q [] s.radio s.seq.pending) :
    ∃ r, t.trace = s.trace ++ newEntries s t ∧ t.responses = s.responses ++ [r] ∧ Q (newEntries s t) t.radio r := by
  rw [exec_eq_run] at he
  injection he with he
  subst he
  obtain ⟨es, r, h1, h2, h3⟩ := Prog.wp_run Q _ s [] h
  have e : newEntries s ((program s.config i).run s) = es := by unfold newEntries; rw [h1]; simp
  rw [e]
  exact ⟨r, h1, h2, by simpa using h3⟩

variable {tx : Memory} {Q : List Entry → Radio → Response → Prop} {es : List Entry} {r : Radio} {p : Status}

theorem regWriteElse_wp {f k : Prog} {a : Addr} {v : Byte}
    (hok : k.wp tx Q (es ++ [{ txn := .write a v, answer := .ok [] }]) r p)
    (hfail : f.wp tx Q (es ++ [{ txn := .write a v, answer := .fail }]) r p) : (regWriteElse f a v k).wp tx Q es r p := by
  intro ans ha
  rcases ha with ⟨d, rfl, hd⟩ | ⟨rfl, _⟩
  · obtain rfl : d = [] := List.length_eq_zero_iff.mp hd
    exact hok
  · exact hfail

theorem regReadElse_wp {f : Prog} {k : Byte → Prog} {a : Addr}
    (hok : ∀ b, (k b).wp tx Q (es ++ [{ txn := .read a, answer := .ok [b] }]) r p)
    (hfail : f.wp tx Q (es ++ [{ txn := .read a, answer := .fail }]) r p) : (regReadElse f a k).wp tx Q es r p := by
  intro ans ha
  rcases ha with ⟨d, rfl, hd⟩ | ⟨rfl, _⟩
  · obtain ⟨b, rfl⟩ := List.length_eq_one_iff.mp hd
    exact hok b
  · exact hfail

theorem delay_wp {k : Prog} {ms : Nat} (h : k.wp tx Q (es ++ [{ txn := .delay ms, answer := .ok [] }]) r p) :
    (delay ms k).wp tx Q es r p := by
  intro ans ha
  rcases ha with ⟨d, rfl, hd⟩ | ⟨rfl, hc⟩
  · obtain rfl : d = [] := List.length_eq_zero_iff.mp hd
    exact h
  · simp [Op.isAnswered] at hc

theorem busInit_wp {k : Prog} (hok : k.wp tx Q (es ++ [{ txn := .busInit, answer := .ok [] }]) r p)
    (hfail : Q (es ++ [{ txn := .busInit, answer := .fail }]) r { status := .busInitFailed, data := 0 }) :
    (busInit k).wp tx Q es r p := by
  intro ans ha
  rcases ha with ⟨d, rfl, hd⟩ | ⟨rfl, _⟩
  · obtain rfl : d = [] := List.length_eq_zero_iff.mp hd
    exact hok
  · exact hfail

theorem burstWriteElse_wp {f k : Prog} {a : Addr} {n next : Nat} (hzero : n = 0 → k.wp tx Q es r p)
    (hok : n ≠ 0 → k.wp tx Q (es ++ [{ txn := .burstWrite a (Memory.firstBytes tx n), answer := .ok [] }]) r p)
    (hfail : n ≠ 0 → f.wp tx Q (es ++ [{ txn := .burstWrite a (Memory.firstBytes tx n), answer := .fail }]) r p) :
    (burstWriteElse f a n next k).wp tx Q es r p := by
  unfold burstWriteElse
  split
  · rename_i hn; exact hzero hn
  · rename_i hn
    intro ans ha
    rcases ha with ⟨d, rfl, hd⟩ | ⟨rfl, _⟩
    · obtain rfl : d = [] := List.length_eq_zero_iff.mp hd
      exact hok hn
    · exact hfail hn

theorem burstRead_wp {k : Prog} {a : Addr} {n next : Nat} (hzero : n = 0 → k.wp tx Q es r p)
    (hok : ∀ d, n ≠ 0 → d.length = n → k.wp tx Q (es ++ [{ txn := .burstRead a n, answer := .ok d }]) r p)
    (hfail : n ≠ 0 → Q (es ++ [{ txn := .burstRead a n, answer := .fail }]) r { status := .bufReadFailed, data := 0 }) :
    (burstRead a n next k).wp tx Q es r p := by
  unfold burstRead
  split
  · rename_i hn; exact hzero hn
  · rename_i hn
    intro ans ha
    rcases ha with ⟨d, rfl, hd⟩ | ⟨rfl, _⟩
    · exact hok d hn hd
    · exact hfail hn

theorem cleanupWrite_wp {k : Prog} {a : Addr} {v : Byte} {onOk : Prog → Prog}
    (hok : (onOk k).wp tx Q (es ++ [{ txn := .write a v, answer := .ok [] }]) r p)
    (hfail : k.wp tx Q (es ++ [{ txn := .write a v, answer := .fail }]) r (if p = .ok then .regWriteFailed else p)) :
    (cleanupWrite a v onOk k).wp tx Q es r p := by
  intro ans ha
  rcases ha with ⟨d, rfl, hd⟩ | ⟨rfl, _⟩
  · obtain rfl : d = [] := List.length_eq_zero_iff.mp hd
    exact hok
  · exact hfail

theorem raise_wp {st : Status} (h : Q es r { status := st, data := 0 }) : (raise st).wp tx Q es r p := h

theorem respond_wp {st : Status} {d : Word} (h : Q es r { status := st, data := d }) : (Prog.respond st d).wp tx Q es r p := h

theorem respondPending_wp (h : Q es r { status := p, data := 0 }) : Prog.respondPending.wp tx Q es r p := h

theorem update_wp {u : Upd} {k : Prog} (h : k.wp tx Q es (u.onRadio r) (u.onSeq { Seq.idle with pending := p }).pending) :
    (Prog.update u k).wp tx Q es r p := h

theorem ask_wp {k : Radio → Prog} (h : (k r).wp tx Q es r p) : (Prog.ask k).wp tx Q es r p := h

/-- The poll loop of `SEND_PACKET` (R182), with an invariant `J` of the transactions issued and of the iterations left. -/
theorem progPollTxDone_wp (c : Config) (J : Nat → List Entry → Prop) (n : Nat) (h0 : J n es)
    (hnext : ∀ n es v, J (n + 1) es → txDone c v = false →
      J n (es ++ [{ txn := .read c.addrIrqFlags, answer := .ok [v] }] ++ [{ txn := .delay c.pollDelayMs, answer := .ok [] }]))
    (hdone : ∀ n es v, J (n + 1) es → txDone c v = true →
      (progCleanup c).wp tx Q (es ++ [{ txn := .read c.addrIrqFlags, answer := .ok [v] }]) r .ok)
    (hfail : ∀ n es, J (n + 1) es →
      (progCleanup c).wp tx Q (es ++ [{ txn := .read c.addrIrqFlags, answer := .fail }]) r .regReadFailed)
    (hcap : ∀ es, J 0 es → (progCleanup c).wp tx Q es (Upd.countLost.onRadio r) p) : (progPollTxDone c n).wp tx Q es r p := by
  induction n generalizing es with
  | zero => exact hcap es h0
  | succ n ih =>
    refine update_wp (update_wp (regReadElse_wp (fun b => ?_) (update_wp (hfail n es h0))))
    split
    · rename_i hb; exact update_wp (hdone n es b h0 hb)
    · rename_i hb; exact delay_wp (ih (hnext n es b h0 (by simpa using hb)))

/-- The version loop of `DRIVER_INIT` (R211), likewise. -/
theorem progPollVersion_wp (c : Config) (J : Nat → List Entry → Prop) (n : Nat) (h0 : J n es)
    (hnext : ∀ n es v, J (n + 1) es → v ≠ c.versionId →
      J n (es ++ [{ txn := .read c.addrVersion, answer := .ok [v] }] ++ [{ txn := .delay c.retryDelayMs, answer := .ok [] }]))
    (hdone : ∀ n es, J (n + 1) es →
      (progInitTail c).wp tx Q (es ++ [{ txn := .read c.addrVersion, answer := .ok [c.versionId] }]) r p)
    (hfail : ∀ n es, J (n + 1) es →
      Q (es ++ [{ txn := .read c.addrVersion, answer := .fail }]) r { status := .regReadFailed, data := 0 })
    (hcap : ∀ es, J 0 es → Q es r { status := .initTimeout, data := 0 }) : (progPollVersion c n).wp tx Q es r p := by
  induction n generalizing es with
  | zero => exact hcap es h0
  | succ n ih =>
    refine update_wp (update_wp (regReadElse_wp (fun b => ?_) (hfail n es h0)))
    split
    · rename_i hb; subst hb; exact hdone n es h0
    · rename_i hb; exact delay_wp (ih (hnext n es b h0 hb))

/-- The loop of `DUMP_REGISTERS` (R204), likewise. -/
theorem progDumpFrom_wp (c : Config) (J : Nat → Nat → List Entry → Prop) (i n : Nat) (h0 : J i n es)
    (hnext : ∀ i n es v, J i (n + 1) es → J (i + 1) n (es ++ [{ txn := .read (BitVec.ofNat addrBits i), answer := .ok [v] }]))
    (hfail : ∀ i n es, J i (n + 1) es → Q (es ++ [{ txn := .read (BitVec.ofNat addrBits i), answer := .fail }]) r
      { status := .regReadFailed, data := BitVec.ofNat 32 i })
    (hend : ∀ i es, J i 0 es → Q es r { status := .ok, data := BitVec.ofNat 32 c.dumpCount }) :
    (progDumpFrom c i n).wp tx Q es r p := by
  induction n generalizing es i with
  | zero => exact hend i es h0
  | succ n ih => exact regReadElse_wp (fun b => update_wp (ih (i + 1) (hnext i n es b h0))) (hfail i n es h0)

end Sys2Proof.Machine
end

