-- ==== Sys2Proof/Tests/Slice0.lean ====
section
/-! SUPPORT. Tests: ill-formed terms, command words written out from 30_encoding, one-step vectors of 95_test_vectors, and witnesses
that meet the hypotheses of every statement that has some. -/

namespace Sys2Proof.Tests

open Sys2Proof Sys2Proof.Machine

/-! ## Helpers -/

/-- Small loops: `POLL_CAP` 3, `INIT_RETRY_BUDGET` 3, `INIT_RETRY_DELAY_MS` 2, `DUMP_COUNT` 4. -/
def smallConfig : Config :=
  { Config.default with pollCap := 3, initRetryBudget := some 3, initRetryDelayMs := some 2, dumpCount := 4 }

/-- The state after reset with small loops and these answers to come. -/
def st (script : List Answer) : State := { State.reset with config := smallConfig, env := { script := script, count := 0 } }

/-- The state a command leaves. -/
def after (i : Instr) (s : State) : State := (program s.config i).run s

/-- An outcome that leaves a state is that next state. -/
theorem next_of {o : Host.Outcome State Fault Refusal} {t : State} (h : outcomeState o = some t) : o = .next t := by
  cases o <;> simp_all [outcomeState]

def bus : Entry := { txn := .busInit, answer := .ok [] }

def wait (ms : Nat) : Entry := { txn := .delay ms, answer := .ok [] }

def wr (a v : Byte) : Entry := { txn := .write a v, answer := .ok [] }

def wrFail (a v : Byte) : Entry := { txn := .write a v, answer := .fail }

def rd (a v : Byte) : Entry := { txn := .read a, answer := .ok [v] }

def rdFail (a : Byte) : Entry := { txn := .read a, answer := .fail }

def wrBurst (bytes : List Byte) : Entry := { txn := .burstWrite 0x00 bytes, answer := .ok [] }

def rdBurst (n : Nat) (bytes : List Byte) : Entry := { txn := .burstRead 0x00 n, answer := .ok bytes }

/-- RadioState in the order of 95_test_vectors: header, size, frequency, lost, mode. -/
def radio (h : HeaderMode) (size : Byte) (f lost : BitVec 32) (m : Mode) : Radio :=
  { headerMode := h, payloadSize := size, frequencyHz := f, lostPacketCount := lost, operatingMode := m }

/-- One row of 95_test_vectors: from RadioState `r0` and payload `tx`, with the answers that the trace shows, the step that runs the word
leaves this trace, this one response and this RadioState, and has drawn every answer. -/
def row (cap : Nat) (tx : List Byte) (r0 : Radio) (w : Nat) (es : List Entry) (status : Status) (d : Word) (r : Radio) : Bool :=
  match step (({ State.reset with
      config := { smallConfig with pollCap := cap, dumpCount := 64 }
      radio := r0
      txbuf := Memory.writeFrom [] 0 tx
      env := { script := (es.filter fun e => !e.txn.isDelay).map Entry.answer, count := 0 } } : State).withFetchWord 48 w) with
  | .next t => decide (t.trace = es ∧ t.responses = [{ status := status, data := d }] ∧ t.radio = r ∧ t.env.script = [])
  | .fault _ => false
  | .refused _ => false

/-! ## Ill-formed terms are refused (R101: the signed operands are 32 bits) -/

theorem test_wf_spreading_factor : Instr.wf (.setSpreadingFactor 2147483648) = false := by decide

theorem test_wf_bandwidth : Instr.wf (.setBandwidth (-2147483649)) = false := by decide

theorem test_wf_coding_rate : Instr.wf (.setCodingRate 4294967295) = false := by decide

theorem test_wf_tx_power : Instr.wf (.setTxPower (-4294967296)) = false := by decide

theorem test_wf_dio_mapping : Instr.wf (.setDioMapping 0 2147483648) = false := by decide

/-! ## Every command's word, written out from R100 to R102: op, b, a -/

theorem test_decode_driver_init : decode 0x010000000000 = .ok .driverInit := by decide

theorem test_decode_close : decode 0x020000000000 = .ok .close := by decide

theorem test_decode_set_frequency : decode 0x100033BCA100 = .ok (.setFrequency 868000000) := by decide

theorem test_decode_set_spreading_factor : decode 0x1100FFFFFFFF = .ok (.setSpreadingFactor (-1)) := by decide

theorem test_decode_set_bandwidth : decode 0x1200FFFFFFFB = .ok (.setBandwidth (-5)) := by decide

theorem test_decode_set_coding_rate : decode 0x130000000008 = .ok (.setCodingRate 8) := by decide

theorem test_decode_set_preamble_length : decode 0x140012345678 = .ok (.setPreambleLength 0x5678) := by decide

theorem test_decode_set_sync_word : decode 0x1500000001FF = .ok (.setSyncWord 0xFF) := by decide

theorem test_decode_set_crc : decode 0x160000000001 = .ok (.setCrc true) := by decide

theorem test_decode_set_tx_power : decode 0x177E0000000E = .ok (.setTxPower 14) := by decide

theorem test_decode_set_dio_mapping : decode 0x180500000003 = .ok (.setDioMapping 5 3) := by decide

theorem test_decode_get_frequency : decode 0x200000000000 = .ok .getFrequency := by decide

theorem test_decode_get_spreading_factor : decode 0x210000000000 = .ok .getSpreadingFactor := by decide

theorem test_decode_get_bandwidth : decode 0x220000000000 = .ok .getBandwidth := by decide

theorem test_decode_get_coding_rate : decode 0x230000000000 = .ok .getCodingRate := by decide

theorem test_decode_get_preamble_length : decode 0x240000000000 = .ok .getPreambleLength := by decide

theorem test_decode_get_sync_word : decode 0x250000000000 = .ok .getSyncWord := by decide

theorem test_decode_get_crc : decode 0x260000000000 = .ok .getCrc := by decide

theorem test_decode_get_tx_power : decode 0x270000000000 = .ok .getTxPower := by decide

theorem test_decode_get_dio_mapping : decode 0x280600000000 = .ok (.getDioMapping 6) := by decide

theorem test_decode_mode_sleep : decode 0x300000000000 = .ok .modeSleep := by decide

theorem test_decode_mode_standby : decode 0x31FFFFFFFFFF = .ok .modeStandby := by decide

theorem test_decode_mode_receive : decode 0x320000000000 = .ok .modeReceive := by decide

theorem test_decode_mode_transmit : decode 0x330000000000 = .ok .modeTransmit := by decide

theorem test_decode_set_explicit_header : decode 0x340000000000 = .ok .setExplicitHeader := by decide

theorem test_decode_set_implicit_header : decode 0x350000000010 = .ok (.setImplicitHeader 16) := by decide

theorem test_decode_send_packet : decode 0x400000000003 = .ok (.sendPacket 3) := by decide

theorem test_decode_receive_packet : decode 0x4100FFFFFFFF = .ok (.receivePacket 0xFFFFFFFF) := by decide

theorem test_decode_poll_received : decode 0x420000000000 = .ok .pollReceived := by decide

theorem test_decode_get_irq_flags : decode 0x500000000000 = .ok .getIrqFlags := by decide

theorem test_decode_packet_lost_count : decode 0x510000000000 = .ok .packetLostCount := by decide

theorem test_decode_packet_rssi : decode 0x520000000000 = .ok .packetRssi := by decide

theorem test_decode_packet_snr : decode 0x530000000000 = .ok .packetSnr := by decide

theorem test_decode_dump_registers : decode 0x540000000000 = .ok .dumpRegisters := by decide

theorem test_decode_table_word : decodeTableWord 48 0x180500000003 = some (.setDioMapping 5 3) := by decide

theorem test_decode_table_word_illegal : decodeTableWord 48 0x0355DEADBEEF = none := by decide

theorem test_encode_sign : encode (.setTxPower (-100)) = 0x1700FFFFFF9C := by decide

/-! ## One step: rows of 95_test_vectors Part 2, by their tables -/

/-- V1: SET_FREQUENCY 868100000. -/
theorem test_set_frequency :
    row 65535 [] (radio .explicit 0 0 0 .sleep) 0x100033BE27A0
      [wr 0x06 0xD9, wr 0x07 0x06, wr 0x08 0x66] .ok 0x00000000 (radio .explicit 0 868100000 0 .sleep) = true := by decide

/-- V1: SET_FREQUENCY 868100000; transaction 2 fails. -/
theorem test_set_frequency_2 :
    row 65535 [] (radio .explicit 0 0 0 .sleep) 0x100033BE27A0
      [wr 0x06 0xD9, wrFail 0x07 0x06] .regWriteFailed 0x00000000 (radio .explicit 0 868100000 0 .sleep) = true := by decide

/-- V1: GET_FREQUENCY; 0x06=0xD9, 0x07=0x06, 0x08=0x66. -/
theorem test_get_frequency :
    row 65535 [] (radio .explicit 0 0 0 .sleep) 0x200000000000
      [rd 0x06 0xD9, rd 0x07 0x06, rd 0x08 0x66] .ok 0x00D90666 (radio .explicit 0 0 0 .sleep) = true := by decide

/-- V2: SET_SPREADING_FACTOR -2147483648. -/
theorem test_set_spreading_factor :
    row 65535 [] (radio .explicit 0 0 0 .sleep) 0x110080000000
      [wr 0x31 0xC5, wr 0x37 0x0C, rd 0x1E 0x74, wr 0x1E 0x64] .ok 0x00000000 (radio .explicit 0 0 0 .sleep) = true := by decide

/-- V2: SET_SPREADING_FACTOR 13. -/
theorem test_set_spreading_factor_2 :
    row 65535 [] (radio .explicit 0 0 0 .sleep) 0x11000000000D
      [wr 0x31 0xC3, wr 0x37 0x0A, rd 0x1E 0x74, wr 0x1E 0xC4] .ok 0x00000000 (radio .explicit 0 0 0 .sleep) = true := by decide

/-- V2: GET_SPREADING_FACTOR; 0x1E=0x34. -/
theorem test_get_spreading_factor :
    row 65535 [] (radio .explicit 0 0 0 .sleep) 0x210000000000
      [rd 0x1E 0x34] .ok 0x00000003 (radio .explicit 0 0 0 .sleep) = true := by decide

/-- V3: SET_BANDWIDTH 1000. -/
theorem test_set_bandwidth :
    row 65535 [] (radio .explicit 0 0 0 .sleep) 0x1200000003E8
      [rd 0x1D 0x72, wr 0x1D 0x92] .ok 0x00000000 (radio .explicit 0 0 0 .sleep) = true := by decide

/-- V3: SET_BANDWIDTH 7; transaction 1 fails. -/
theorem test_set_bandwidth_2 :
    row 65535 [] (radio .explicit 0 0 0 .sleep) 0x120000000007
      [rdFail 0x1D] .regReadFailed 0x00000000 (radio .explicit 0 0 0 .sleep) = true := by decide

/-- V3: GET_BANDWIDTH; 0x1D=0x92. -/
theorem test_get_bandwidth :
    row 65535 [] (radio .explicit 0 0 0 .sleep) 0x220000000000
      [rd 0x1D 0x92] .ok 0x00000009 (radio .explicit 0 0 0 .sleep) = true := by decide

/-- V3: GET_BANDWIDTH; 0x1D=0xA2. -/
theorem test_get_bandwidth_2 :
    row 65535 [] (radio .explicit 0 0 0 .sleep) 0x220000000000
      [rd 0x1D 0xA2] .failure 0x00000000 (radio .explicit 0 0 0 .sleep) = true := by decide

/-- V4: SET_CODING_RATE -1. -/
theorem test_set_coding_rate :
    row 65535 [] (radio .explicit 0 0 0 .sleep) 0x1300FFFFFFFF
      [rd 0x1D 0x72, wr 0x1D 0x72] .ok 0x00000000 (radio .explicit 0 0 0 .sleep) = true := by decide

/-- V4: SET_CODING_RATE 9. -/
theorem test_set_coding_rate_2 :
    row 65535 [] (radio .explicit 0 0 0 .sleep) 0x130000000009
      [rd 0x1D 0x72, wr 0x1D 0x78] .ok 0x00000000 (radio .explicit 0 0 0 .sleep) = true := by decide

/-- V4: GET_CODING_RATE; 0x1D=0x7F. -/
theorem test_get_coding_rate :
    row 65535 [] (radio .explicit 0 0 0 .sleep) 0x230000000000
      [rd 0x1D 0x7F] .ok 0x0000000B (radio .explicit 0 0 0 .sleep) = true := by decide

/-- V5: SET_PREAMBLE_LENGTH 305419896. -/
theorem test_set_preamble_length :
    row 65535 [] (radio .explicit 0 0 0 .sleep) 0x140012345678
      [wr 0x20 0x56, wr 0x21 0x78] .ok 0x00000000 (radio .explicit 0 0 0 .sleep) = true := by decide

/-- V5: GET_PREAMBLE_LENGTH; 0x20=0x12, 0x21=0x34. -/
theorem test_get_preamble_length :
    row 65535 [] (radio .explicit 0 0 0 .sleep) 0x240000000000
      [rd 0x20 0x12, rd 0x21 0x34] .ok 0x00001234 (radio .explicit 0 0 0 .sleep) = true := by decide

/-- V5: SET_SYNC_WORD 0x1FF. -/
theorem test_set_sync_word :
    row 65535 [] (radio .explicit 0 0 0 .sleep) 0x1500000001FF
      [wr 0x39 0xFF] .ok 0x00000000 (radio .explicit 0 0 0 .sleep) = true := by decide

/-- V5: GET_SYNC_WORD; 0x39=0x34. -/
theorem test_get_sync_word :
    row 65535 [] (radio .explicit 0 0 0 .sleep) 0x250000000000
      [rd 0x39 0x34] .ok 0x00000034 (radio .explicit 0 0 0 .sleep) = true := by decide

/-- V5: SET_CRC 1; 0x1E=0x70. -/
theorem test_set_crc :
    row 65535 [] (radio .explicit 0 0 0 .sleep) 0x160000000001
      [rd 0x1E 0x70, wr 0x1E 0x74] .ok 0x00000000 (radio .explicit 0 0 0 .sleep) = true := by decide

/-- V5: SET_CRC 2; 0x1E=0x7B (a[0]=0). -/
theorem test_set_crc_2 :
    row 65535 [] (radio .explicit 0 0 0 .sleep) 0x160000000002
      [rd 0x1E 0x7B, wr 0x1E 0x7B] .ok 0x00000000 (radio .explicit 0 0 0 .sleep) = true := by decide

/-- V5: GET_CRC; 0x1E=0x74. -/
theorem test_get_crc :
    row 65535 [] (radio .explicit 0 0 0 .sleep) 0x260000000000
      [rd 0x1E 0x74] .ok 0x00000001 (radio .explicit 0 0 0 .sleep) = true := by decide

/-- V6: SET_TX_POWER -100. -/
theorem test_set_tx_power :
    row 65535 [] (radio .explicit 0 0 0 .sleep) 0x1700FFFFFF9C
      [wr 0x09 0x80] .ok 0x00000000 (radio .explicit 0 0 0 .sleep) = true := by decide

/-- V6: SET_TX_POWER 18. -/
theorem test_set_tx_power_2 :
    row 65535 [] (radio .explicit 0 0 0 .sleep) 0x170000000012
      [wr 0x09 0x8F] .ok 0x00000000 (radio .explicit 0 0 0 .sleep) = true := by decide

/-- V6: GET_TX_POWER; 0x09=0x7C. -/
theorem test_get_tx_power :
    row 65535 [] (radio .explicit 0 0 0 .sleep) 0x270000000000
      [rd 0x09 0x7C] .ok 0x0000000E (radio .explicit 0 0 0 .sleep) = true := by decide

/-- V7: SET_DIO_MAPPING 1, 2; 0x40=0xFF. -/
theorem test_set_dio_mapping :
    row 65535 [] (radio .explicit 0 0 0 .sleep) 0x180100000002
      [rd 0x40 0xFF, wr 0x40 0xEF] .ok 0x00000000 (radio .explicit 0 0 0 .sleep) = true := by decide

/-- V7: SET_DIO_MAPPING 6, 0. -/
theorem test_set_dio_mapping_2 :
    row 65535 [] (radio .explicit 0 0 0 .sleep) 0x180600000000
      [] .failure 0x00000000 (radio .explicit 0 0 0 .sleep) = true := by decide

/-- V7: GET_DIO_MAPPING 4; 0x41=0x9F. -/
theorem test_get_dio_mapping :
    row 65535 [] (radio .explicit 0 0 0 .sleep) 0x280400000000
      [rd 0x41 0x9F] .ok 0x00000002 (radio .explicit 0 0 0 .sleep) = true := by decide

/-- V7: GET_DIO_MAPPING 6. -/
theorem test_get_dio_mapping_2 :
    row 65535 [] (radio .explicit 0 0 0 .sleep) 0x280600000000
      [] .failure 0x00000000 (radio .explicit 0 0 0 .sleep) = true := by decide

/-- V8: MODE_SLEEP; declared mode Receive before; transaction 1 fails. -/
theorem test_mode_sleep :
    row 65535 [] (radio .explicit 0 0 0 .receive) 0x300000000000
      [wrFail 0x01 0x80] .regWriteFailed 0x00000000 (radio .explicit 0 0 0 .receive) = true := by decide

/-- V8: MODE_STANDBY. -/
theorem test_mode_standby :
    row 65535 [] (radio .explicit 0 0 0 .sleep) 0x310000000000
      [wr 0x01 0x81] .ok 0x00000000 (radio .explicit 0 0 0 .standby) = true := by decide

/-- V8: MODE_RECEIVE. -/
theorem test_mode_receive :
    row 65535 [] (radio .explicit 0 0 0 .sleep) 0x320000000000
      [wr 0x01 0x85] .ok 0x00000000 (radio .explicit 0 0 0 .receive) = true := by decide

/-- V8: MODE_TRANSMIT. -/
theorem test_mode_transmit :
    row 65535 [] (radio .explicit 0 0 0 .sleep) 0x330000000000
      [wr 0x01 0x83] .ok 0x00000000 (radio .explicit 0 0 0 .transmit) = true := by decide

/-- V8: SET_EXPLICIT_HEADER; 0x1D=0x73; state Implicit,16 before. -/
theorem test_set_explicit_header :
    row 65535 [] (radio .implicit 16 0 0 .sleep) 0x340000000000
      [rd 0x1D 0x73, wr 0x1D 0x72] .ok 0x00000000 (radio .explicit 16 0 0 .sleep) = true := by decide

/-- V8: SET_EXPLICIT_HEADER; state Implicit,16 before; transaction 2 fails. -/
theorem test_set_explicit_header_2 :
    row 65535 [] (radio .implicit 16 0 0 .sleep) 0x340000000000
      [rd 0x1D 0x73, wrFail 0x1D 0x72] .regWriteFailed 0x00000000 (radio .implicit 16 0 0 .sleep) = true := by decide

/-- V8: SET_IMPLICIT_HEADER 0x1FF; 0x1D=0x72. -/
theorem test_set_implicit_header :
    row 65535 [] (radio .explicit 0 0 0 .sleep) 0x3500000001FF
      [rd 0x1D 0x72, wr 0x1D 0x73, wr 0x22 0xFF] .ok 0x00000000 (radio .implicit 255 0 0 .sleep) = true := by decide

/-- V8: SET_IMPLICIT_HEADER 16; 0x1D=0x72; transaction 3 fails. -/
theorem test_set_implicit_header_2 :
    row 65535 [] (radio .explicit 0 0 0 .sleep) 0x350000000010
      [rd 0x1D 0x72, wr 0x1D 0x73, wrFail 0x22 0x10] .regWriteFailed 0x00000000 (radio .explicit 0 0 0 .sleep) = true := by decide

/-- V9: SEND_PACKET 2; POLL_CAP=3; flags always 0x00. -/
theorem test_send_packet :
    row 3 [0xAA, 0xBB] (radio .explicit 0 0 0 .sleep) 0x400000000002
      [wr 0x01 0x81, wr 0x0D 0x00, wrBurst [0xAA, 0xBB], wr 0x22 0x02, wr 0x01 0x83, rd 0x12 0x00, wait 10, rd 0x12 0x00, wait 10, rd 0x12 0x00, wait 10, wr 0x01 0x80, wr 0x12 0x08] .sendTimeout 0x00000000 (radio .explicit 0 0 1 .sleep) = true := by decide

/-- V9: SEND_PACKET 1; flags 0x08; transactions 7 and 8 fail. -/
theorem test_send_packet_2 :
    row 65535 [0x01] (radio .explicit 0 0 0 .sleep) 0x400000000001
      [wr 0x01 0x81, wr 0x0D 0x00, wrBurst [0x01], wr 0x22 0x01, wr 0x01 0x83, rd 0x12 0x08, wrFail 0x01 0x80, wrFail 0x12 0x08] .regWriteFailed 0x00000000 (radio .explicit 0 0 0 .transmit) = true := by decide

/-- V10: RECEIVE_PACKET 255; state Implicit,4; flags 0x40; 0x22=0x04; 0x13=0x09; 0x10=0x20. -/
theorem test_receive_packet :
    row 65535 [] (radio .implicit 4 0 0 .sleep) 0x4100000000FF
      [rd 0x12 0x40, wr 0x12 0x40, rd 0x22 0x04, wr 0x01 0x81, rd 0x10 0x20, wr 0x0D 0x20, rdBurst 4 [0xDE, 0xAD, 0xBE, 0xEF]] .ok 0x00000004 (radio .implicit 4 0 0 .standby) = true := by decide

/-- V10: RECEIVE_PACKET 255; declared mode Receive; flags 0x20 (CRC-error without receive-done). -/
theorem test_receive_packet_2 :
    row 65535 [] (radio .explicit 0 0 0 .receive) 0x4100000000FF
      [rd 0x12 0x20, wr 0x12 0x20] .noData 0x00000000 (radio .explicit 0 0 0 .receive) = true := by decide

/-- V11: POLL_RECEIVED; flags 0xFF. -/
theorem test_poll_received :
    row 65535 [] (radio .explicit 0 0 0 .sleep) 0x420000000000
      [rd 0x12 0xFF, wr 0x12 0x20] .ok 0x00000003 (radio .explicit 0 0 0 .sleep) = true := by decide

/-- V11: POLL_RECEIVED; flags 0x60; transaction 2 fails. -/
theorem test_poll_received_2 :
    row 65535 [] (radio .explicit 0 0 0 .sleep) 0x420000000000
      [rd 0x12 0x60, wrFail 0x12 0x20] .regWriteFailed 0x00000003 (radio .explicit 0 0 0 .sleep) = true := by decide

/-- V12: GET_IRQ_FLAGS; flags 0x48. -/
theorem test_get_irq_flags :
    row 65535 [] (radio .explicit 0 0 0 .sleep) 0x500000000000
      [rd 0x12 0x48] .ok 0x00000048 (radio .explicit 0 0 0 .sleep) = true := by decide

/-- V12: PACKET_LOST_COUNT; lost count 2. -/
theorem test_packet_lost_count :
    row 65535 [] (radio .explicit 0 0 2 .sleep) 0x510000000000
      [] .ok 0x00000002 (radio .explicit 0 0 2 .sleep) = true := by decide

/-- V12: PACKET_RSSI; frequency 867999999; 0x1A=0x64. -/
theorem test_packet_rssi :
    row 65535 [] (radio .explicit 0 867999999 0 .sleep) 0x520000000000
      [rd 0x1A 0x64] .ok 0xFFFFFFC0 (radio .explicit 0 867999999 0 .sleep) = true := by decide

/-- V12: PACKET_RSSI; frequency 868000000; 0x1A=0x00. -/
theorem test_packet_rssi_2 :
    row 65535 [] (radio .explicit 0 868000000 0 .sleep) 0x520000000000
      [rd 0x1A 0x00] .ok 0xFFFFFF63 (radio .explicit 0 868000000 0 .sleep) = true := by decide

/-- V12: PACKET_SNR; 0x19=0x80. -/
theorem test_packet_snr :
    row 65535 [] (radio .explicit 0 0 0 .sleep) 0x530000000000
      [rd 0x19 0x80] .ok 0xFFFFFF80 (radio .explicit 0 0 0 .sleep) = true := by decide

/-- V12: DUMP_REGISTERS; transaction 6 fails. -/
theorem test_dump_registers :
    row 65535 [] (radio .explicit 0 0 0 .sleep) 0x540000000000
      [rd 0x00 0x00, rd 0x01 0x03, rd 0x02 0x06, rd 0x03 0x09, rd 0x04 0x0C, rdFail 0x05] .regReadFailed 0x00000005 (radio .explicit 0 0 0 .sleep) = true := by decide

/-- V13: DRIVER_INIT; version reads 0x00 then 0x12; 0x0C=0xFF. -/
theorem test_driver_init :
    row 65535 [] (radio .explicit 0 0 0 .sleep) 0x010000000000
      [bus, rd 0x42 0x00, wait 2, rd 0x42 0x12, wr 0x01 0x80, wr 0x0F 0x00, wr 0x0E 0x00, rd 0x0C 0xFF, wr 0x0C 0xFF, wr 0x26 0x04, wr 0x01 0x81] .ok 0x00000000 (radio .explicit 0 0 0 .standby) = true := by decide

/-- V13: DRIVER_INIT; version always 0x00; state Implicit,9,868000000,4,Receive before. -/
theorem test_driver_init_2 :
    row 65535 [] (radio .implicit 9 868000000 4 .receive) 0x010000000000
      [bus, rd 0x42 0x00, wait 2, rd 0x42 0x00, wait 2, rd 0x42 0x00, wait 2] .initTimeout 0x00000000 (radio .implicit 9 868000000 4 .receive) = true := by decide

/-- V13: CLOSE; state Implicit,9,868000000,4,Receive before. -/
theorem test_close :
    row 65535 [] (radio .implicit 9 868000000 4 .receive) 0x020000000000
      [wr 0x01 0x80] .ok 0x00000000 (radio .implicit 9 868000000 4 .sleep) = true := by decide

/-- V14: (op 0xFF). -/
theorem test_illegal_opcode :
    row 65535 [] (radio .explicit 0 0 0 .sleep) 0xFF55DEADBEEF
      [] .failure 0x00000000 (radio .explicit 0 0 0 .sleep) = true := by decide

/-! ## Reset, host moves, and the fetch of one word -/

theorem test_reset_inv : State.reset.inv = true := by decide

theorem test_small_config_wf : smallConfig.wf = true ∧ Config.default.wf = true := by decide

/-- R6: `FRF_BITS` cuts the register value; no rule bounds the RSSI offsets. -/
theorem test_parameters_of_r6 :
    frf { Config.default with frfBits := 8 } 868000000 = 0x00 ∧ frfMid (frf Config.default 868000000) = 0x00 ∧
      Config.wf { Config.default with rssiOffsetLow := 1000, frfBits := 16, snrFracBits := 3 } = true := by decide

/-- R6: every named and dumped address has `ADDR_BITS` bits, and R8 and R101 print the other two widths. -/
theorem test_config_wf_widths :
    Config.wf { Config.default with addrBits := 7 } = true ∧ Config.wf { Config.default with addrBits := 6 } = false ∧
      Config.wf { Config.default with addrBits := 7, dumpCount := 129 } = false ∧
      Config.wf { Config.default with dataBits := 9 } = false ∧ Config.wf { Config.default with lenBits := 7 } = false := by decide

/-- R7: a table with two registers at one address, a two-bit flag mask, an empty range or a retry budget of 0 is no table. -/
theorem test_config_wf_refuses :
    Config.wf { Config.default with addrLna := 0x01 } = false ∧ Config.wf { Config.default with irqTxDone := 0x09 } = false ∧
      Config.wf { Config.default with sfMin := 13 } = false ∧ Config.wf { Config.default with initRetryBudget := some 0 } = false := by
  decide

theorem test_fetch_word_runs_it :
    step (State.reset.withFetchWord 48 0x510000000000) = exec .packetLostCount (State.reset.accept 0x510000000000) := rfl

theorem test_load_txbuf :
    step { st [] with inputs := [.loadTx [0x48, 0x00, 0x21]] } = .next { st [] with txbuf := [(0, 0x48), (2, 0x21)] } := rfl

theorem test_memory_write_keeps_form :
    Memory.write [(1, 5), (3, 7)] 1 0 = [(3, 7)] ∧ Memory.write [(1, 5), (3, 7)] 2 9 = [(1, 5), (2, 9), (3, 7)] := by decide

/-! ## Witnesses: for each statement with hypotheses, states and operands that meet them -/

theorem witness_StepRunsDecodedCommand :
    let s := { st [.ok []] with inputs := [Input.command 0x300000000000] }
    s.config.wf = true ∧ s.seq.busy = false ∧ s.inputs = .command 0x300000000000 :: [] ∧ decode 0x300000000000 = .ok .modeSleep := by
  decide

/-- The bounds of every range of R105. -/
theorem witness_IllegalOpcodeAnswersFailure :
    (st []).config.wf = true ∧ (st []).seq.busy = false ∧
      ∀ op ∈ ([0x00, 0x03, 0x0F, 0x19, 0x1F, 0x29, 0x2F, 0x36, 0x3F, 0x43, 0x4F, 0x55, 0xFF] : List Byte),
        isIllegalOpcode (Cmd48.op (op ++ (0x55 : Byte) ++ (0xDEADBEEF : Word))).toNat = true := by decide

theorem witness_DecodeEncodeRoundTrip :
    Instr.wf (.setDioMapping 0xFF (-2147483648)) = true ∧ Instr.wf (.setTxPower 2147483647) = true ∧ Instr.wf .close = true := by decide

theorem witness_DecodesExactlyTheTable :
    decode 0x1600FFFFFFFE = .ok (.setCrc false) ∧ isIllegalOpcode 0x18 = false ∧ isIllegalOpcode 0x54 = false := by decide

theorem witness_HardwareResetSetsRegistersOnly :
    let s := { st [] with inputs := [Input.reset], radio := radio .implicit 9 868000000 4 .receive }
    s.config.wf = true ∧ s.seq.busy = false ∧ s.inputs = .reset :: [] := by decide

/-- Before the only transaction, after it and before the response, and after the response. -/
theorem witness_ResetMidCommandDropsIt :
    ∀ n ∈ [0, 1, 2],
      let s := { st [.ok []] with inputs := [Input.interrupted 0x330000000000 n] }
      s.config.wf = true ∧ s.seq.busy = false ∧ decode 0x330000000000 = .ok .modeTransmit ∧
        (newEntries s (after .modeTransmit ({ s with inputs := [] }.accept 0x330000000000))).length = 1 := by decide

theorem witness_IdleRceWaitsAndTakesPayload :
    (st []).config.wf = true ∧ (st []).seq.busy = false ∧ (st []).inputs = [] ∧ Memory.wf (st []).txbuf = true ∧
      (List.replicate 255 (0xAA : Byte)).length ≤ 255 ∧ ([] : List Byte).length ≤ 255 :=
  ⟨by decide, rfl, rfl, by decide, by rw [List.length_replicate], by decide⟩

theorem witness_BusyRceAcceptsNothing :
    let s := { (st [.ok []]).accept 0x300000000000 with inputs := [Input.command 0x310000000000] }
    s.config.wf = true ∧ s.seq.busy = true := by decide

theorem witness_StepStopsOnlyOnBadParameters :
    (st []).config.wf = true ∧ { st [] with config := { smallConfig with fxoscHz := 0 } }.config.wf = false := by decide

theorem witness_StepKeepsInvariant :
    let s := { st [.ok [0x12]] with inputs := [Input.command 0x250000000000] }
    s.inv = true ∧ (∃ t, step s = .next t) := ⟨by decide, _, rfl⟩

/-- One state before a transaction, one before the response. -/
theorem witness_TickIsOneTransactionOrResponse :
    ((st [.ok []]).acceptStep 0x300000000000).seq.busy = true ∧ ((st []).acceptStep 0x510000000000).seq.busy = true := by decide

theorem witness_TicksRunTheWholeCommand : decode 0x510000000000 = .ok .packetLostCount ∧ decode 0x400000000003 = .ok (.sendPacket 3) := by
  decide

/-- A command outside both exceptions, and the two exceptions. -/
theorem witness_CommandFrame :
    exec .getCrc (st [.ok [0x04]]) = .next (after .getCrc (st [.ok [0x04]])) ∧
      exec (.receivePacket 1) (st [.fail]) = .next (after (.receivePacket 1) (st [.fail])) ∧
      exec .dumpRegisters (st [.fail]) = .next (after .dumpRegisters (st [.fail])) ∧ (∀ cap, Instr.getCrc ≠ .receivePacket cap) ∧
      Instr.getCrc ≠ .dumpRegisters := ⟨next_of (by decide), next_of (by decide), next_of (by decide), by simp, by simp⟩

theorem witness_RadioStateWriters :
    exec .getCrc (st [.ok [0x04]]) = .next (after .getCrc (st [.ok [0x04]])) ∧
      (Instr.getCrc ≠ .setExplicitHeader ∧ ∀ n, Instr.getCrc ≠ .setImplicitHeader n) ∧ (∀ f, Instr.getCrc ≠ .setFrequency f) ∧
      (∀ n, Instr.getCrc ≠ .sendPacket n) ∧ (∀ n, Instr.getCrc ≠ .receivePacket n) ∧ Instr.getCrc ≠ .close :=
  ⟨next_of (by decide), by simp, by simp, by simp, by simp, by simp⟩

/-- A timeout with the counter one below its greatest value, one at it, and no timeout. -/
theorem witness_LostCountCountsTimeouts :
    let script := [.ok [], .ok [], .ok [], .ok [], .ok [0x00], .ok [0x00], .ok [0x77], .ok [], .fail]
    let s := { st script with radio := { Radio.reset with lostPacketCount := 0xFFFFFFFE } }
    let u := { st script with radio := { Radio.reset with lostPacketCount := 0xFFFFFFFF } }
    (after (.sendPacket 0) s).responses = s.responses ++ [{ status := .sendTimeout, data := 0 }] ∧
      (after (.sendPacket 0) u).responses = u.responses ++ [{ status := .sendTimeout, data := 0 }] ∧
      (after .close (st [.fail])).responses = (st []).responses ++ [{ status := .regWriteFailed, data := 0 }] := by decide

theorem witness_DeclaredModeFollowsTrace :
    (st []).config.wf = true ∧ Function.Injective (modeByte (st []).config) ∧
      exec .modeReceive (st [.ok []]) = .next (after .modeReceive (st [.ok []])) :=
  ⟨by decide, by intro a b h; cases a <;> cases b <;> first | rfl | (revert h; decide), next_of (by decide)⟩

/-- One transaction of the dump, one of another command. -/
theorem witness_OnlyNamedRegistersAddressed :
    rd 0x00 0xAA ∈ newEntries (st []) (after .dumpRegisters (st [.ok [0xAA], .fail])) ∧ (rd 0x00 0xAA).txn.address = some 0x00 ∧
      rdFail 0x39 ∈ newEntries (st []) (after .getSyncWord (st [.fail])) ∧ (rdFail 0x39).txn.address = some 0x39 := by decide

/-- One write in each of the three places. -/
theorem witness_IrqFlagsWrittenInThreePlaces :
    (st []).config.wf = true ∧
      wr 0x12 0x08 ∈ newEntries (st [])
        (after (.sendPacket 0) (st [.ok [], .ok [], .ok [], .ok [], .ok [0x08], .ok [], .ok []])) ∧
      wr 0x12 0x20 ∈ newEntries (st []) (after .pollReceived (st [.ok [0x60], .ok []])) ∧
      wr 0x12 0x60 ∈ newEntries (st []) (after (.receivePacket 8) (st [.ok [0x60], .ok []])) := by decide

theorem witness_StatusesFollowTheTable :
    exec .driverInit (st [.fail]) = .next (after .driverInit (st [.fail])) ∧
      (after .driverInit (st [.fail])).responses = (st []).responses ++ [{ status := .busInitFailed, data := 0 }] := ⟨next_of (by decide), by decide⟩

/-- A failure of an ordinary command, and the two that carry data. -/
theorem witness_FailureResponsesCarryNoData :
    (after .getCrc (st [.fail])).responses = (st []).responses ++ [{ status := .regReadFailed, data := 0 }] ∧
      (after .dumpRegisters (st [.ok [0x01], .fail])).responses = (st []).responses ++ [{ status := .regReadFailed, data := 1 }] ∧
      (after .pollReceived (st [.ok [0x60], .fail])).responses = (st []).responses ++ [{ status := .regWriteFailed, data := 3 }] := by
  decide

theorem witness_FailedTransactionEndsCommand :
    exec .getFrequency (st [.ok [0xD9], .fail]) = .next (after .getFrequency (st [.ok [0xD9], .fail])) ∧
      (after .getFrequency (st [.ok [0xD9], .fail])).responses = (st []).responses ++ [{ status := .regReadFailed, data := 0 }] ∧
      newEntries (st []) (after .getFrequency (st [.ok [0xD9], .fail])) = [rd 0x06 0xD9] ++ rdFail 0x07 :: [] ∧
      ∀ n, Instr.getFrequency ≠ .sendPacket n := ⟨next_of (by decide), by decide, by decide, by simp⟩

theorem witness_TransactionBounds :
    exec .driverInit (st [.fail]) = .next (after .driverInit (st [.fail])) ∧ exec (.sendPacket 1) (st [.fail]) = .next (after (.sendPacket 1) (st [.fail])) ∧
      exec .close (st [.ok []]) = .next (after .close (st [.ok []])) ∧ Instr.close ≠ .driverInit ∧ (∀ n, Instr.close ≠ .sendPacket n) :=
  ⟨next_of (by decide), next_of (by decide), next_of (by decide), by simp, by simp⟩

/-- Success, and a failure at the first and at the last write. -/
theorem witness_SetFrequencyWritesTriplet :
    let ops : List Op := [.write 0x06 0xD9, .write 0x07 0x06, .write 0x08 0x66]
    (st [.ok [], .ok [], .ok []]).env.replies ops = [.ok [], .ok [], .ok []] ∧
      (st [.fail]).env.replies (ops.take 1) = ([.fail] : List Answer) ∧
      (st [.ok [], .ok [], .fail]).env.replies (ops.take 3) = ([.ok [], .ok [], .fail] : List Answer) := by decide

theorem witness_WholeRegisterSetters :
    let ops : List Op := [.write 0x20 0x12, .write 0x21 0x34]
    (st []).config.wf = true ∧ (st [.ok [], .ok []]).env.replies ops = ops.map (fun _ => .ok []) ∧
      (st [.ok [], .fail]).env.replies (ops.take 2) = List.replicate 1 (.ok []) ++ [.fail] ∧
      (st [.ok []]).env.replies [.write 0x39 0xFF] = [.ok []] ∧ (st [.fail]).env.replies [.write 0x09 0x8F] = [.fail] := by decide

/-- Both branches, at the least factor and above it, and a failure at each transaction. -/
theorem witness_SetSpreadingFactorSequence :
    let ops : List Op := [.write 0x31 0xC5, .write 0x37 0x0C, .read 0x1E, .write 0x1E 0x64]
    let high : List Op := [.write 0x31 0xC3, .write 0x37 0x0A, .read 0x1E, .write 0x1E 0xC4]
    (st []).config.wf = true ∧ (max (smallConfig.sfMin : Int) (min (-1) smallConfig.sfMax)).toNat = smallConfig.sfMin ∧
      (max (smallConfig.sfMin : Int) (min 13 smallConfig.sfMax)).toNat = 12 ∧
      (st [.ok [], .ok [], .ok [0x74], .ok []]).env.replies ops = [.ok [], .ok [], .ok [0x74], .ok []] ∧
      (st [.ok [], .ok [], .ok [0x74], .ok []]).env.replies high = [.ok [], .ok [], .ok [0x74], .ok []] ∧
      (st [.fail]).env.replies (ops.take 1) = [.fail] ∧ (st [.ok [], .fail]).env.replies (ops.take 2) = [.ok [], .fail] ∧
      (st [.ok [], .ok [], .fail]).env.replies (ops.take 3) = [.ok [], .ok [], .fail] ∧
      (st [.ok [], .ok [], .ok [0x74], .fail]).env.replies ops = [.ok [], .ok [], .ok [0x74], .fail] := by decide

/-- The three runs of a read-modify-write, as every command of that shape meets them. -/
theorem witness_SharedRegisterSettersReadModifyWrite :
    (st []).config.wf = true ∧
      (st [.ok [0x72], .ok []]).env.replies (rmwOps 0x1D 0x72 0xF0 0x90) = [.ok [0x72], .ok []] ∧
      (st [.fail]).env.replies [.read 0x1D] = [.fail] ∧
      (st [.ok [0x72], .fail]).env.replies (rmwOps 0x1D 0x72 0x0E 0x08) = [.ok [0x72], .fail] := by decide

/-- The last pin of each register. -/
theorem witness_CrcAndDioSettersReadModifyWrite :
    (st []).config.wf = true ∧ (3 : Byte).toNat < smallConfig.dioPinCount ∧ (5 : Byte).toNat < smallConfig.dioPinCount ∧
      (st [.ok [0xFF], .ok []]).env.replies (rmwOps 0x40 0xFF 0x03 0x00) = [.ok [0xFF], .ok []] ∧
      (st [.ok [0xC1], .fail]).env.replies (rmwOps 0x41 0xC1 0x30 0x30) = [.ok [0xC1], .fail] ∧
      (st [.fail]).env.replies [.read 0x1E] = [.fail] := by decide

/-- Two pins of the first register, two of the second. -/
theorem witness_ReadModifyWritePreservesUnrelatedBits :
    smallConfig.wf = true ∧ 0 < smallConfig.dioPinCount ∧ 3 < smallConfig.dioPinCount ∧ 5 < smallConfig.dioPinCount ∧
      (0 < smallConfig.dioPinsInReg1 ↔ 3 < smallConfig.dioPinsInReg1) ∧ (4 < smallConfig.dioPinsInReg1 ↔ 5 < smallConfig.dioPinsInReg1) := by
  decide

theorem witness_InvalidDioPinFails : (st []).config.dioPinCount ≤ (6 : Byte).toNat ∧ (st []).config.dioPinCount ≤ (255 : Byte).toNat := by
  decide

theorem witness_FieldGettersExtract :
    (st [.ok [0xC4]]).env.replies [.read 0x1E] = [.ok [0xC4]] ∧ (st [.fail]).env.replies [.read 0x12] = [.fail] ∧
      (0 : Byte).toNat < smallConfig.dioPinCount ∧ (5 : Byte).toNat < smallConfig.dioPinCount := by decide

/-- The greatest index, the field value above it, a failed read. -/
theorem witness_GetBandwidthChecksRange :
    (st [.ok [0x92]]).env.replies [.read 0x1D] = [.ok [0x92]] ∧ (st [.ok [0xA2]]).env.replies [.read 0x1D] = [.ok [0xA2]] ∧
      (st [.fail]).env.replies [.read 0x1D] = [.fail] := by decide

theorem witness_MultiByteGettersJoin :
    let f : List Op := [.read 0x06, .read 0x07, .read 0x08]
    let p : List Op := [.read 0x20, .read 0x21]
    (st [.ok [0xD9], .ok [0x06], .ok [0x66]]).env.replies f = [.ok [0xD9], .ok [0x06], .ok [0x66]] ∧
      (st [.fail]).env.replies (f.take 1) = [.fail] ∧ (st [.ok [0xD9], .fail]).env.replies (f.take 2) = [.ok [0xD9], .fail] ∧
      (st [.ok [0xD9], .ok [0x06], .fail]).env.replies f = [.ok [0xD9], .ok [0x06], .fail] ∧
      (st [.ok [0x12], .ok [0x34]]).env.replies p = [.ok [0x12], .ok [0x34]] ∧ (st [.fail]).env.replies (p.take 1) = [.fail] ∧
      (st [.ok [0x12], .fail]).env.replies p = [.ok [0x12], .fail] := by decide

/-- Two commands one after the other are answered as a plain chip with these registers answers them. -/
def followed (i j : Instr) (script : List Answer) (regs fifo : Memory) : Bool :=
  Memory.wf regs && Memory.wf fifo &&
    (Chip.follow smallConfig { regs := regs, fifo := fifo } (newEntries (st script) (after j (after i (st script))))).isSome

/-- Each of the five pairs, below the range, at its bounds or above it. -/
theorem witness_ClampedSettersRoundTripOnPlainChip :
    smallConfig.wf = true ∧ (5 : Byte).toNat < smallConfig.dioPinCount ∧
      followed (.setSpreadingFactor (-1)) .getSpreadingFactor [.ok [], .ok [], .ok [0x74], .ok [], .ok [0x64]] [(0x1E, 0x74)] [] = true ∧
      followed (.setBandwidth 10) .getBandwidth [.ok [0x72], .ok [], .ok [0x92]] [(0x1D, 0x72)] [] = true ∧
      followed (.setCodingRate 4) .getCodingRate [.ok [0x7F], .ok [], .ok [0x73]] [(0x1D, 0x7F)] [] = true ∧
      followed (.setTxPower 18) .getTxPower [.ok [], .ok [0x8F]] [] [] = true ∧
      followed (.setDioMapping 5 3) (.getDioMapping 5) [.ok [0xC1], .ok [], .ok [0xF1]] [(0x41, 0xC1)] [] = true := by decide

theorem witness_SleepStandbyReceiveWriteMode :
    (st [.ok []]).env.replies [.write 0x01 0x80] = [.ok []] ∧ (st [.fail]).env.replies [.write 0x01 0x85] = [.fail] := by decide

theorem witness_TransmitAndCloseWriteMode :
    (st [.ok []]).env.replies [.write 0x01 0x83] = [.ok []] ∧ (st [.fail]).env.replies [.write 0x01 0x80] = [.fail] := by decide

theorem witness_SetExplicitHeaderClearsBit :
    let ops : List Op := [.read 0x1D, .write 0x1D 0x72]
    (st [.ok [0x73], .ok []]).env.replies ops = [.ok [0x73], .ok []] ∧ (st [.fail]).env.replies (ops.take 1) = [.fail] ∧
      (st [.ok [0x73], .fail]).env.replies ops = [.ok [0x73], .fail] := by decide

theorem witness_SetImplicitHeaderSetsBitAndLength :
    let ops : List Op := [.read 0x1D, .write 0x1D 0x73, .write 0x22 0x10]
    (st [.ok [0x72], .ok [], .ok []]).env.replies ops = [.ok [0x72], .ok [], .ok []] ∧
      (st [.fail]).env.replies (ops.take 1) = [.fail] ∧ (st [.ok [0x72], .fail]).env.replies (ops.take 2) = [.ok [0x72], .fail] ∧
      (st [.ok [0x72], .ok [], .fail]).env.replies ops = [.ok [0x72], .ok [], .fail] := by decide

/-- Seen at the first poll with an empty payload, and at the last one with both cleanup writes failing. -/
theorem witness_SendPacketTransmitDone :
    (let s := st [.ok [], .ok [], .ok [], .ok [], .ok [0x08], .ok [], .ok []]
     let ops := armOps smallConfig 0 ++ pollRounds smallConfig 0 ++ ([.read smallConfig.addrIrqFlags] : List Op) ++ cleanupOps smallConfig
     s.env.replies ops = allOk (armOps smallConfig 0) ++ roundAnswers [] ++ ([.ok [0x08], .ok [], .ok []] : List Answer)) ∧
      (let s := st [.ok [], .ok [], .ok [], .ok [], .ok [], .ok [0x00], .ok [0x77], .ok [0xFF], .fail, .fail]
       let ops := armOps smallConfig 2 ++ pollRounds smallConfig 2 ++ ([.read smallConfig.addrIrqFlags] : List Op) ++ cleanupOps smallConfig
       s.env.replies ops = allOk (armOps smallConfig 2) ++ roundAnswers [0x00, 0x77] ++ ([.ok [0xFF], .fail, .fail] : List Answer)) ∧
      2 < smallConfig.pollCap ∧ (0x77 : Byte) &&& smallConfig.irqTxDone = 0 ∧ (0xFF : Byte) &&& smallConfig.irqTxDone ≠ 0 := by decide

theorem witness_SendPacketTimesOut :
    let s := st [.ok [], .ok [], .ok [], .ok [], .ok [], .ok [0x00], .ok [0x77], .ok [0x00], .ok [], .fail]
    let ops := armOps smallConfig 1 ++ pollRounds smallConfig smallConfig.pollCap ++ cleanupOps smallConfig
    s.env.replies ops = allOk (armOps smallConfig 1) ++ roundAnswers [0x00, 0x77, 0x00] ++ ([.ok [], .fail] : List Answer) ∧
      ([0x00, 0x77, 0x00] : List Byte).length = smallConfig.pollCap := by decide

/-- At the first poll and at the last. -/
theorem witness_SendPacketPollReadFails :
    (let s := st [.ok [], .ok [], .ok [], .ok [], .fail, .fail, .ok []]
     let ops := armOps smallConfig 0 ++ pollRounds smallConfig 0 ++ ([.read smallConfig.addrIrqFlags] : List Op) ++ cleanupOps smallConfig
     s.env.replies ops = allOk (armOps smallConfig 0) ++ roundAnswers [] ++ ([.fail, .fail, .ok []] : List Answer)) ∧
      (let s := st [.ok [], .ok [], .ok [], .ok [], .ok [], .ok [0x00], .ok [0x77], .fail, .ok [], .ok []]
       let ops := armOps smallConfig 2 ++ pollRounds smallConfig 2 ++ ([.read smallConfig.addrIrqFlags] : List Op) ++ cleanupOps smallConfig
       s.env.replies ops = allOk (armOps smallConfig 2) ++ roundAnswers [0x00, 0x77] ++ ([.fail, .ok [], .ok []] : List Answer)) ∧
      2 < smallConfig.pollCap := by decide

/-- At each of the five steps. -/
theorem witness_SendPacketArmingAborts :
    (armOps smallConfig 1).length = 5 ∧ (armOps smallConfig 0).length = 4 ∧
      ∀ k ∈ [0, 1, 2, 3, 4],
        (st (List.replicate k (.ok [] : Answer) ++ ([.fail] : List Answer))).env.replies ((armOps smallConfig 1).take (k + 1)) =
          List.replicate k (.ok [] : Answer) ++ ([.fail] : List Answer) := by decide

theorem witness_PayloadReachesFifoOnPlainChip :
    let s := { st [.ok [], .ok [], .ok [], .ok [], .ok [], .ok [0x08], .ok [], .ok []] with txbuf := [(0, 0x48), (1, 0x69)] }
    s.config.wf = true ∧ exec (.sendPacket 2) s = .next (after (.sendPacket 2) s) ∧
      (Chip.follow s.config { regs := [(0x12, 0x08)], fifo := [(0, 0xFF)] } (newEntries s (after (.sendPacket 2) s))).isSome = true :=
  ⟨by decide, next_of (by decide), by decide⟩

theorem witness_ReceivePacketWithoutGoodPacket :
    let ops : Byte → List Op := fun v => [.read 0x12, .write 0x12 v]
    (st [.fail]).env.replies ((ops 0x40).take 1) = [.fail] ∧ (st [.ok [0x40], .fail]).env.replies (ops 0x40) = [.ok [0x40], .fail] ∧
      (st [.ok [0x20], .ok []]).env.replies (ops 0x20) = [.ok [0x20], .ok []] ∧ (0x20 : Byte) &&& smallConfig.irqRxDone = 0 ∧
      (st [.ok [0x60], .ok []]).env.replies (ops 0x60) = [.ok [0x60], .ok []] ∧ (0x60 : Byte) &&& smallConfig.irqRxDone ≠ 0 ∧
      (0x60 : Byte) &&& smallConfig.irqCrcError ≠ 0 := by decide

/-- A truncated packet with an explicit header, and a count of 0 with an implicit one. -/
theorem witness_ReceivePacketCopiesPacket :
    (0x40 : Byte) &&& smallConfig.irqRxDone ≠ 0 ∧ (0x40 : Byte) &&& smallConfig.irqCrcError = 0 ∧
      2 = min (0xC8 : Byte).toNat (2 : Word).toNat ∧ 0 = min (0xC8 : Byte).toNat (0 : Word).toNat ∧
      (st [.ok [0x40], .ok [], .ok [0xC8], .ok [], .ok [0x20], .ok [], .ok [0xDE, 0xAD]]).env.replies
          [.read 0x12, .write 0x12 0x40, .read 0x13, .write 0x01 0x81, .read 0x10, .write 0x0D 0x20, .burstRead 0x00 2] =
        [.ok [0x40], .ok [], .ok [0xC8], .ok [], .ok [0x20], .ok [], .ok [0xDE, 0xAD]] ∧
      (st [.ok [0x40], .ok [], .ok [0xC8], .ok [], .ok [0x20], .ok []]).env.replies
          [.read 0x12, .write 0x12 0x40, .read 0x22, .write 0x01 0x81, .read 0x10, .write 0x0D 0x20] =
        [.ok [0x40], .ok [], .ok [0xC8], .ok [], .ok [0x20], .ok []] := by decide

/-- A failure at each of the transactions 3 to 7. -/
theorem witness_ReceivePacketFailsInSequence :
    let ops : List Op := [.read 0x12, .write 0x12 0x40, .read 0x13, .write 0x01 0x81, .read 0x10, .write 0x0D 0x20, .burstRead 0x00 4]
    let good : List Answer := [.ok [0x40], .ok [], .ok [0x04], .ok [], .ok [0x20], .ok []]
    4 = min (0x04 : Byte).toNat (8 : Word).toNat ∧
      ∀ k ∈ [2, 3, 4, 5, 6], (st (good.take k ++ [.fail])).env.replies (ops.take (k + 1)) = good.take k ++ [.fail] := by decide

theorem witness_PollReceivedReportsFlags :
    let ops : List Op := [.read 0x12, .write 0x12 0x20]
    (st [.fail]).env.replies (ops.take 1) = [.fail] ∧ (st [.ok [0x20]]).env.replies (ops.take 1) = [.ok [0x20]] ∧
      (0x20 : Byte) &&& smallConfig.irqRxDone = 0 ∧ (st [.ok [0x40]]).env.replies (ops.take 1) = [.ok [0x40]] ∧
      (0x40 : Byte) &&& smallConfig.irqCrcError = 0 ∧ (st [.ok [0x60], .ok []]).env.replies ops = [.ok [0x60], .ok []] ∧
      (st [.ok [0x60], .fail]).env.replies ops = [.ok [0x60], .fail] ∧ (0x60 : Byte) &&& smallConfig.irqRxDone ≠ 0 ∧
      (0x60 : Byte) &&& smallConfig.irqCrcError ≠ 0 := by decide

theorem witness_PolledCorruptPacketIsReceivedAsGood :
    smallConfig.wf = true ∧ Memory.read [(0x12, 0x60), (0x13, 0x02)] 0x12 &&& smallConfig.irqRxDone ≠ 0 ∧
      Memory.read [(0x12, 0x60), (0x13, 0x02)] 0x12 &&& smallConfig.irqCrcError ≠ 0 ∧
      followed .pollReceived (.receivePacket 8)
        [.ok [0x60], .ok [], .ok [0x40], .ok [], .ok [0x02], .ok [], .ok [0x00], .ok [], .ok [0xAA, 0xBB]]
        [(0x12, 0x60), (0x13, 0x02)] [(0, 0xAA), (1, 0xBB)] = true := by decide

/-- The default offset, the greatest that is exact, and one above it. -/
theorem witness_RssiAndSnrArithmetic :
    (let s := st [.ok [0x64]]
     164 = (if s.radio.frequencyHz.toNat < s.config.rssiBandHz then s.config.rssiOffsetLow else s.config.rssiOffsetHigh) ∧
      s.env.replies [.read 0x1A] = [.ok [0x64]] ∧ (st [.fail]).env.replies [.read 0x19] = [.fail]) ∧
      (rssiData 0x00 (2 ^ 31)).toInt = -(2 ^ 31) ∧ (rssiData 0x00 (2 ^ 31 + 1)).toInt = 2 ^ 31 - 1 := by decide

/-- R203: "read 0x28 gives `respond(OK, 40)` (10.0 dB)". -/
theorem test_snr_decibels : snrDecibels Config.default (snrData 0x28) = 10 := by
  rw [snrDecibels, show (snrData 0x28).toInt = 40 from by decide, show Config.default.snrFracBits = 2 from rfl]
  norm_num

/-- All four addresses, and a failure at the first and at the last. -/
theorem witness_DumpRegistersListsAddresses :
    Memory.wf (st []).dumpbuf = true ∧
      (st [.ok [1], .ok [2], .ok [3], .ok [4]]).env.replies (dumpOps smallConfig.dumpCount) =
        ([1, 2, 3, 4] : List Byte).map (fun v => Answer.ok [v]) ∧
      (st [.fail]).env.replies (dumpOps 1) = ([] : List Byte).map (fun v => Answer.ok [v]) ++ ([.fail] : List Answer) ∧
      (st [.ok [1], .ok [2], .ok [3], .fail]).env.replies (dumpOps 4) = ([1, 2, 3] : List Byte).map (fun v => Answer.ok [v]) ++ ([.fail] : List Answer) := by
  decide

/-- The version read at the first poll and at the last. -/
theorem witness_DriverInitFindsChip :
    let tail : List Answer := [.ok [], .ok [], .ok [], .ok [0x20], .ok [], .ok [], .ok []]
    ∀ vs ∈ ([[], [0x00, 0xFF]] : List (List Byte)),
      vs.length < smallConfig.retryBudget ∧ (∀ x ∈ vs, x ≠ smallConfig.versionId) ∧
        (st (([.ok []] : List Answer) ++ vs.map (fun v => Answer.ok [v]) ++ ([.ok [0x12]] : List Answer) ++ tail)).env.replies
            (([.busInit] : List Op) ++ versionRounds smallConfig vs.length ++ ([.read smallConfig.addrVersion] : List Op) ++ tailOps smallConfig 0x20) =
          ([.ok []] : List Answer) ++ roundAnswers vs ++ ([.ok [smallConfig.versionId]] : List Answer) ++ tail := by decide

theorem witness_DriverInitGivesUp :
    (st [.fail]).env.replies [.busInit] = [.fail] ∧
      (st [.ok [], .ok [0x00], .ok [0xFF], .fail]).env.replies
          (([.busInit] : List Op) ++ versionRounds smallConfig 2 ++ ([.read smallConfig.addrVersion] : List Op)) =
        ([.ok []] : List Answer) ++ roundAnswers [0x00, 0xFF] ++ ([.fail] : List Answer) ∧
      (st [.ok [], .ok [0x00], .ok [0xFF], .ok [0x13]]).env.replies (([.busInit] : List Op) ++ versionRounds smallConfig 3) =
        ([.ok []] : List Answer) ++ roundAnswers [0x00, 0xFF, 0x13] ∧
      2 < smallConfig.retryBudget ∧ ([0x00, 0xFF, 0x13] : List Byte).length = smallConfig.retryBudget ∧
      ∀ x ∈ ([0x00, 0xFF, 0x13] : List Byte), x ≠ smallConfig.versionId := by decide

/-- At each of the seven transactions of the tail. -/
theorem witness_DriverInitTailFails :
    let tail : List Answer := [.ok [], .ok [], .ok [], .ok [0x20], .ok [], .ok []]
    ∀ k ∈ [0, 1, 2, 3, 4, 5, 6],
      (st (([.ok [], .ok [0x12]] : List Answer) ++ tail.take k ++ ([.fail] : List Answer))).env.replies
          (([.busInit] : List Op) ++ versionRounds smallConfig 0 ++ ([.read smallConfig.addrVersion] : List Op) ++ (tailOps smallConfig 0x20).take (k + 1)) =
        ([.ok []] : List Answer) ++ roundAnswers [] ++ ([.ok [smallConfig.versionId]] : List Answer) ++ tail.take k ++ ([.fail] : List Answer) := by decide

end Sys2Proof.Tests
end

section
/-! PROOFS. Bits of a read-modify-write (00_scope R10) and the two-bit windows of the DIO pins (R7, 40_config R146). -/

namespace Sys2Proof.Machine

/-- R10, bit by bit. -/
theorem rmwByte_getLsbD (old mask val : Byte) (k : Nat) :
    (rmwByte old mask val).getLsbD k = if mask.getLsbD k then val.getLsbD k else old.getLsbD k := by
  by_cases hk : k < dataBits
  · have hbit : (rmwByte old mask val).getLsbD k = (old.getLsbD k && !mask.getLsbD k || val.getLsbD k && mask.getLsbD k) := by
      simp [rmwByte, hk]
    rw [hbit]
    cases mask.getLsbD k <;> simp
  · simp [BitVec.getLsbD_of_ge _ k (Nat.le_of_not_lt hk)]

/-- Bits that share nothing with the mask come through a read-modify-write as they were read. -/
theorem rmwByte_and_of_disjoint {mask other : Byte} (h : mask &&& other = 0) (old val : Byte) :
    rmwByte old mask val &&& other = old &&& other := by
  refine BitVec.eq_of_getLsbD_eq fun k _ => ?_
  have hk : (mask.getLsbD k && other.getLsbD k) = false := by rw [← BitVec.getLsbD_and, h]; simp
  rw [BitVec.getLsbD_and, BitVec.getLsbD_and, rmwByte_getLsbD]
  cases hm : mask.getLsbD k with
  | false => rfl
  | true => simp_all

theorem pairwiseDisjoint_iff (l : List Byte) :
    Config.pairwiseDisjoint l = true ↔ l.Pairwise fun m k => m &&& k = 0 := by
  induction l with
  | nil => simp [Config.pairwiseDisjoint]
  | cons m rest ih => simp [Config.pairwiseDisjoint, Config.disjoint, ih]

/-- Two pins whose windows stand in one pairwise disjoint list share no bit. -/
theorem dioWindow_and_of_pairwiseDisjoint {shifts : List Nat} (h : Config.pairwiseDisjoint (shifts.map Config.dioWindow) = true)
    {i j : Nat} (hi : i < shifts.length) (hj : j < shifts.length) (hij : i ≠ j) :
    Config.dioWindow (shifts.getD i 0) &&& Config.dioWindow (shifts.getD j 0) = 0 := by
  rw [List.getD_eq_getElem _ _ hi, List.getD_eq_getElem _ _ hj]
  have hp := List.pairwise_iff_getElem.mp (List.pairwise_map.mp ((pairwiseDisjoint_iff _).mp h))
  rcases Nat.lt_or_gt_of_ne hij with hlt | hlt
  · exact hp i j hi hj hlt
  · rw [BitVec.and_comm]
    exact hp j i hj hi hlt

/-- R7: two pins of one DIO register have windows that share no bit. -/
theorem Params.dioWindow_and {c : Config} (h : Params c) {p q : Nat} (hp : p < c.dioPinCount) (hq : q < c.dioPinCount) (hpq : p ≠ q)
    (hreg : p < c.dioPinsInReg1 ↔ q < c.dioPinsInReg1) :
    Config.dioWindow (c.dioShift.getD p 0) &&& Config.dioWindow (c.dioShift.getD q 0) = 0 := by
  rw [← h.dioLength] at hp hq
  by_cases hp1 : p < c.dioPinsInReg1
  · have hq1 := hreg.mp hp1
    have hw := dioWindow_and_of_pairwiseDisjoint h.dioFirst (i := p) (j := q) (by simp; omega) (by simp; omega) hpq
    simpa [List.getD_eq_getElem?_getD, List.getElem?_take, hp1, hq1] using hw
  · have hq1 : ¬ q < c.dioPinsInReg1 := fun hq1 => hp1 (hreg.mpr hq1)
    have hw := dioWindow_and_of_pairwiseDisjoint h.dioSecond (i := p - c.dioPinsInReg1) (j := q - c.dioPinsInReg1)
      (by simp; omega) (by simp; omega) (by omega)
    have hpe : c.dioPinsInReg1 + (p - c.dioPinsInReg1) = p := by omega
    have hqe : c.dioPinsInReg1 + (q - c.dioPinsInReg1) = q := by omega
    simpa [List.getD_eq_getElem?_getD, List.getElem?_drop, hpe, hqe] using hw

/-- Settles O35: the bitwise law of R10, and the disjoint windows of R7 for the pins of one register. -/
theorem readModifyWritePreservesUnrelatedBits : Obligations.ReadModifyWritePreservesUnrelatedBits := by
  refine ⟨rmwByte_getLsbD, fun c p q old m hwf hp hq hpq hreg => ?_⟩
  exact rmwByte_and_of_disjoint ((Params.of hwf).dioWindow_and hp hq hpq hreg) old _

end Sys2Proof.Machine
end

section
/-! PROOFS. The sequencer at the grain of R5: what acceptance and one step do, and the steps of a whole command. -/

namespace Sys2Proof.Machine

/-! ## Acceptance -/

/-- Before its first transaction no command but `SET_FREQUENCY` writes RadioState (D15). -/
theorem program_radioAfter_nil (c : Config) {i : Instr} (hi : ∀ f, i ≠ .setFrequency f) (r : Radio) :
    (program c i).radioAfter r [] = r := by
  cases i with
  | setFrequency f => exact absurd rfl (hi f)
  | setSpreadingFactor v => simp only [program, progSetSpreadingFactor]; split <;> rfl
  | setDioMapping pin mode => simp only [program, progSetDioMapping]; split <;> rfl
  | getDioMapping pin => simp only [program, progGetDioMapping]; split <;> rfl
  | dumpRegisters => simp only [program, progDumpRegisters]; cases c.dumpCount <;> rfl
  | _ => rfl

/-- Settles O17: settling makes no transaction, and only `SET_FREQUENCY` begins with an update of RadioState. -/
theorem acceptanceIssuesNoTransaction : Obligations.AcceptanceIssuesNoTransaction := by
  intro s w
  obtain ⟨hbusy, hcmd, -, -, -, htrace, hresponses, henv, -, -⟩ := Prog.settle_frame (wordProgram s.config w) (s.accept w)
  refine ⟨htrace, hresponses, henv, hbusy, hcmd, ?_⟩
  have hradio : (s.acceptStep w).radio = (wordProgram s.config w).radioAfter s.radio [] := Prog.settle_radio _ _
  rw [hradio, wordProgram]
  cases decode w with
  | error e => rfl
  | ok i =>
    show (program s.config i).radioAfter s.radio [] = _
    split
    · next f hi => obtain rfl := Except.ok.inj hi; rfl
    · next hi => exact program_radioAfter_nil _ (fun f hf => hi f (congrArg Except.ok hf)) _

/-! ## One step -/

/-- Where the response comes next, a step of a busy RCE delivers it. -/
theorem State.tick_respond {s : State} (hb : s.seq.busy = true) {st : Status} {d : Word} (h : s.remaining = .respond st d) :
    s.tick = s.deliver st d := by
  simp only [State.tick, hb, if_true, h]

theorem State.tick_respondPending {s : State} (hb : s.seq.busy = true) (h : s.remaining = .respondPending) :
    s.tick = s.deliver s.seq.pending 0 := by
  simp only [State.tick, hb, if_true, h]

/-- A step of a busy RCE: the delivery of a response, or one transaction and the updates its answer leads to. -/
theorem State.tick_cases {s : State} (hb : s.seq.busy = true) :
    (∃ st d, s.tick = s.deliver st d) ∨
      ∃ op k, s.remaining = .issue op k ∧ s.tick = (k (s.reply op)).settle (s.transact op) := by
  rcases Prog.remaining_normal _ _ _ with ⟨st, d, h⟩ | h | ⟨op, k, h⟩
  · exact .inl ⟨st, d, State.tick_respond hb h⟩
  · exact .inl ⟨_, _, State.tick_respondPending hb h⟩
  · exact .inr ⟨op, k, h, by simp only [State.tick, hb, if_true, State.remaining, h]⟩

/-- Settles O15, by the two things a step can be. -/
theorem tickIsOneTransactionOrResponse : Obligations.TickIsOneTransactionOrResponse := by
  intro s hb
  rcases State.tick_cases hb with ⟨st, d, ht⟩ | ⟨op, k, -, ht⟩
  · exact .inr ⟨{ status := st, data := d }, by simp [ht, Seq.idle]⟩
  · obtain ⟨hbusy, -, -, -, -, htrace, hresponses, -⟩ := Prog.settle_frame (k (s.reply op)) (s.transact op)
    refine .inl ⟨{ txn := op.onPort s.txbuf, answer := s.reply op }, ?_⟩
    rw [ht, htrace, hresponses, hbusy]
    exact ⟨rfl, rfl, hb⟩

/-! ## All steps of a command -/

theorem newEntries_of_trace {s t : State} {es : List Entry} (h : t.trace = s.trace ++ es) : newEntries s t = es := by
  simp [newEntries, h]

/-- A transaction and what follows it: the new entries are the transaction's own and those that follow. -/
theorem newEntries_run_transact (p : Prog) (op : Op) (s : State) :
    newEntries s (p.run (s.transact op)) =
      { txn := op.onPort s.txbuf, answer := s.reply op } :: newEntries (s.transact op) (p.run (s.transact op)) := by
  obtain ⟨-, ⟨es, he⟩, -⟩ := Prog.run_frame p (s.transact op)
  rw [newEntries_of_trace he]
  exact newEntries_of_trace (by rw [he]; simp)

/-- From where a command's pseudocode stands, one step per transaction and one for the response reach what running it reaches. -/
theorem Prog.ticks_settle (p : Prog) (s : State) (hs : (p.settle s).InStep) (hr : (p.settle s).remaining = p.remaining s.radio []) :
    State.ticks ((newEntries s (p.run s)).length + 1) (p.settle s) = p.run s := by
  induction p generalizing s with
  | respond st d =>
    rw [newEntries_of_trace (es := []) (by simp [Prog.run])]
    exact State.tick_respond hs.1 hr
  | respondPending =>
    rw [newEntries_of_trace (es := []) (by simp [Prog.run])]
    exact State.tick_respondPending hs.1 hr
  | issue op k ih =>
    obtain ⟨ht, hin, hrem⟩ := State.tick_issue s hs op k hr
    rw [ht] at hin hrem
    calc State.ticks ((newEntries s ((k (s.reply op)).run (s.transact op))).length + 1) s
        = State.ticks ((newEntries (s.transact op) ((k (s.reply op)).run (s.transact op))).length + 1) s.tick := by
          rw [newEntries_run_transact, List.length_cons, State.ticks]
      _ = (k (s.reply op)).run (s.transact op) := by rw [ht]; exact ih (s.reply op) (s.transact op) hin hrem
  | update u p ih => exact ih (s.apply u) hs hr
  | ask k ih => exact ih s.radio s hs hr

/-- The steps from acceptance reach what running the word's pseudocode reaches. -/
theorem State.ticks_acceptStep (s : State) (w : Cmd48) :
    State.ticks ((newEntries s ((wordProgram s.config w).run (s.accept w))).length + 1) (s.acceptStep w) =
      (wordProgram s.config w).run (s.accept w) :=
  have ⟨hs, hr⟩ := s.acceptStep_inStep w
  Prog.ticks_settle (wordProgram s.config w) (s.accept w) hs hr

theorem wordProgram_of_decode (c : Config) {w : Cmd48} {i : Instr} (h : decode w = .ok i) : wordProgram c w = program c i := by
  simp only [wordProgram, h]

/-- Settles O16: the command runs its pseudocode, and so do the steps from acceptance. -/
theorem ticksRunTheWholeCommand : Obligations.TicksRunTheWholeCommand := by
  intro s w i hd
  refine ⟨(program s.config i).run (s.accept w), exec_eq_run i (s.accept w), ?_⟩
  rw [← wordProgram_of_decode s.config hd]
  exact s.ticks_acceptStep w

end Sys2Proof.Machine
end

section
/-! PROOFS. Every step keeps the host buffers inside their arrays (10_state R28): what a command stores fits, whatever is answered, and so
every step of the sequencer keeps the invariant. -/

namespace Sys2Proof.Machine

/-! ## Buffers inside their arrays -/

/-- A host buffer in canonical form whose indices are below `n`. -/
def Memory.Inside (n : Nat) (m : Memory) : Prop := Memory.wf m = true ∧ Memory.below n m = true

theorem Memory.Inside.write {n : Nat} {m : Memory} (h : Memory.Inside n m) {i : Nat} (hi : i < n) (b : Byte) :
    Memory.Inside n (Memory.write m i b) := ⟨Memory.write_wf h.1, Memory.write_below h.2 hi⟩

theorem Memory.Inside.writeFrom {n : Nat} {m : Memory} (h : Memory.Inside n m) {bytes : List Byte} (hb : bytes.length ≤ n) :
    Memory.Inside n (Memory.writeFrom m 0 bytes) := ⟨Memory.writeFrom_wf h.1, Memory.writeFrom_below h.2 (by omega)⟩

/-- The three host buffers inside the arrays of R28. -/
structure State.BuffersInside (s : State) : Prop where
  tx : Memory.Inside 255 s.txbuf
  rx : Memory.Inside 255 s.rxbuf
  dump : Memory.Inside s.config.dumpCount s.dumpbuf

theorem State.inv_iff (s : State) : s.inv = true ↔ s.config.wf = true ∧ s.seq = Seq.idle ∧ s.BuffersInside := by
  simp only [State.inv, Bool.and_eq_true, decide_eq_true_eq]
  constructor
  · rintro ⟨⟨⟨⟨hwf, hseq⟩, htx⟩, hrx⟩, hdump⟩
    exact ⟨hwf, hseq, htx, hrx, hdump⟩
  · rintro ⟨hwf, hseq, htx, hrx, hdump⟩
    exact ⟨⟨⟨⟨hwf, hseq⟩, htx⟩, hrx⟩, hdump⟩

theorem State.BuffersInside.transact {s : State} (h : s.BuffersInside) (op : Op) : (s.transact op).BuffersInside := ⟨h.tx, h.rx, h.dump⟩

theorem State.BuffersInside.deliver {s : State} (h : s.BuffersInside) (st : Status) (d : Word) : (s.deliver st d).BuffersInside :=
  ⟨h.tx, h.rx, h.dump⟩

/-- The host's payload is cut at index 254 (R28). -/
theorem State.BuffersInside.loadTx {s : State} (h : s.BuffersInside) (data : List Byte) : (s.loadTx data).BuffersInside :=
  ⟨h.tx.writeFrom (List.length_take_le 255 data), h.rx, h.dump⟩

/-! ## What a command stores -/

/-- An update stores inside the buffers' arrays, `dumpbuf` having `n` bytes. -/
def Upd.Fits (n : Nat) : Upd → Prop
  | .storeRx bytes => bytes.length ≤ 255
  | .spoilRx k => k ≤ 255
  | .storeDump i _ => i < n
  | _ => True

theorem State.BuffersInside.apply {s : State} (h : s.BuffersInside) {u : Upd} (hu : u.Fits s.config.dumpCount) :
    (s.apply u).BuffersInside := by
  cases u with
  | storeRx bytes => exact ⟨h.tx, h.rx.writeFrom hu, h.dump⟩
  | spoilRx k => exact ⟨h.tx, h.rx.writeFrom (by simpa using (show k ≤ 255 from hu)), h.dump⟩
  | storeDump i v => exact ⟨h.tx, h.rx, h.dump.write hu v⟩
  | _ => exact ⟨h.tx, h.rx, h.dump⟩

/-- Every update of a command's pseudocode fits, whatever the environment answers and whatever RadioState holds. -/
def Prog.Fits (n : Nat) : Prog → Prop
  | .respond _ _ => True
  | .respondPending => True
  | .issue op k => ∀ a, op.Answers a → (k a).Fits n
  | .update u p => u.Fits n ∧ p.Fits n
  | .ask k => ∀ r, (k r).Fits n

/-- The answers to an operation, one by one. -/
theorem Op.forall_answers (op : Op) (P : Answer → Prop) :
    (∀ a, op.Answers a → P a) ↔ (∀ d, d.length = op.dataLength → P (.ok d)) ∧ (op.isAnswered = true → P .fail) := by
  constructor
  · intro h
    exact ⟨fun d hd => h _ (.inl ⟨d, rfl, hd⟩), fun ho => h _ (.inr ⟨rfl, ho⟩)⟩
  · rintro ⟨hok, hfail⟩ a (⟨d, rfl, hd⟩ | ⟨rfl, ho⟩)
    · exact hok d hd
    · exact hfail ho

section
variable {n : Nat}

@[simp] theorem respond_fits (st : Status) (d : Word) : (Prog.respond st d).Fits n ↔ True := Iff.rfl

@[simp] theorem respondPending_fits : Prog.respondPending.Fits n ↔ True := Iff.rfl

@[simp] theorem raise_fits (st : Status) : (raise st).Fits n ↔ True := Iff.rfl

@[simp] theorem raiseWith_fits (st : Status) (d : Word) : (raiseWith st d).Fits n ↔ True := Iff.rfl

@[simp] theorem update_fits (u : Upd) (p : Prog) : (Prog.update u p).Fits n ↔ u.Fits n ∧ p.Fits n := Iff.rfl

@[simp] theorem ask_fits (k : Radio → Prog) : (Prog.ask k).Fits n ↔ ∀ r, (k r).Fits n := Iff.rfl

@[simp] theorem ite_fits (P : Prop) [Decidable P] (p q : Prog) :
    (if P then p else q).Fits n ↔ if P then p.Fits n else q.Fits n := by
  split <;> rfl

@[simp] theorem regWriteElse_fits (f : Prog) (a : Addr) (v : Byte) (k : Prog) :
    (regWriteElse f a v k).Fits n ↔ k.Fits n ∧ f.Fits n := by
  simp [regWriteElse, Prog.Fits, Op.forall_answers, Op.dataLength, Op.isAnswered]

@[simp] theorem regWrite_fits (a : Addr) (v : Byte) (k : Prog) : (regWrite a v k).Fits n ↔ k.Fits n := by
  simp [regWrite]

@[simp] theorem regReadElse_fits (f : Prog) (a : Addr) (k : Byte → Prog) :
    (regReadElse f a k).Fits n ↔ (∀ b, (k b).Fits n) ∧ f.Fits n := by
  simp [regReadElse, Prog.Fits, Op.forall_answers, Op.dataLength, Op.isAnswered, List.length_eq_one_iff]

@[simp] theorem regRead_fits (a : Addr) (k : Byte → Prog) : (regRead a k).Fits n ↔ ∀ b, (k b).Fits n := by
  simp [regRead]

@[simp] theorem rmw_fits (a : Addr) (mask val : Byte) (k : Prog) : (rmw a mask val k).Fits n ↔ k.Fits n := by
  simp [rmw]

@[simp] theorem busInit_fits (k : Prog) : (busInit k).Fits n ↔ k.Fits n := by
  simp [busInit, Prog.Fits, Op.forall_answers, Op.dataLength, Op.isAnswered]

@[simp] theorem delay_fits (ms : Nat) (k : Prog) : (delay ms k).Fits n ↔ k.Fits n := by
  simp [delay, Prog.Fits, Op.forall_answers, Op.dataLength, Op.isAnswered]

@[simp] theorem cleanupWrite_fits (a : Addr) (v : Byte) (onOk : Prog → Prog) (k : Prog) :
    (cleanupWrite a v onOk k).Fits n ↔ (onOk k).Fits n ∧ k.Fits n := by
  simp [cleanupWrite, Prog.Fits, Op.forall_answers, Op.dataLength, Op.isAnswered, Upd.Fits]

@[simp] theorem setModeElse_fits (f : Prog) (c : Config) (m : Mode) (k : Prog) :
    (setModeElse f c m k).Fits n ↔ k.Fits n ∧ f.Fits n := by
  simp [setModeElse, Upd.Fits]

@[simp] theorem setMode_fits (c : Config) (m : Mode) (k : Prog) : (setMode c m k).Fits n ↔ k.Fits n := by
  simp [setMode]

theorem burstWriteElse_fits {f k : Prog} (hf : f.Fits n) (hk : k.Fits n) (a : Addr) (len next : Nat) :
    (burstWriteElse f a len next k).Fits n := by
  simp [burstWriteElse, Prog.Fits, Op.forall_answers, Op.dataLength, Op.isAnswered, Upd.Fits, hf, hk]

/-- A burst of at most 255 bytes stays inside `rxbuf`, answered `ok` or `fail`. -/
theorem burstRead_fits {k : Prog} (hk : k.Fits n) (a : Addr) {len : Nat} (hlen : len ≤ 255) (next : Nat) :
    (burstRead a len next k).Fits n := by
  unfold burstRead
  split
  · exact ⟨trivial, hk⟩
  · refine (Op.forall_answers _ _).mpr ⟨fun d hd => ⟨?_, hk⟩, fun _ => ⟨hlen, trivial⟩⟩
    exact hd.trans_le hlen

end

/-! ## Every command fits -/

theorem copyCount_le (len : Byte) (cap : BitVec 32) : copyCount len cap ≤ 255 :=
  (Nat.min_le_left _ _).trans (Nat.le_of_lt_succ len.isLt)

theorem progReceivePacket_fits (n : Nat) (c : Config) (cap : BitVec 32) : (progReceivePacket c cap).Fits n := by
  have hburst (len : Byte) :
      (burstRead c.addrFifo (copyCount len cap) 7 (.respond .ok (BitVec.ofNat 32 (copyCount len cap)))).Fits n :=
    burstRead_fits (by simp) _ (copyCount_le len cap) 7
  simp [progReceivePacket, hburst]

theorem progCleanup_fits (n : Nat) (c : Config) : (progCleanup c).Fits n := by
  simp [progCleanup, Upd.Fits]

theorem progPollTxDone_fits (n : Nat) (c : Config) (k : Nat) : (progPollTxDone c k).Fits n := by
  induction k with
  | zero => simp [progPollTxDone, Upd.Fits, progCleanup_fits]
  | succ k ih => simp [progPollTxDone, Upd.Fits, progCleanup_fits, ih]

theorem progSendPacket_fits (n : Nat) (c : Config) (len : Byte) : (progSendPacket c len).Fits n := by
  simp only [progSendPacket, setModeElse_fits, regWriteElse_fits, raise_fits, and_true]
  refine burstWriteElse_fits (by simp) ?_ _ _ _
  simp [Upd.Fits, progPollTxDone_fits]

theorem progPollVersion_fits (n : Nat) (c : Config) (k : Nat) : (progPollVersion c k).Fits n := by
  induction k with
  | zero => trivial
  | succ k ih => simp [progPollVersion, progInitTail, Upd.Fits, ih]

/-- The dump from address `i` on with `k` addresses left writes below `i + k`. -/
theorem progDumpFrom_fits (n : Nat) (c : Config) {i k : Nat} (h : i + k ≤ n) : (progDumpFrom c i k).Fits n := by
  induction k generalizing i with
  | zero => trivial
  | succ k ih =>
    have hi : i < n := by omega
    simp [progDumpFrom, Upd.Fits, hi, ih (i := i + 1) (by omega)]

/-- Every command stores inside the buffers' arrays (R28, R190, R204). -/
theorem program_fits (c : Config) (i : Instr) : (program c i).Fits c.dumpCount := by
  cases i with
  | driverInit => simp [program, progDriverInit, progPollVersion_fits]
  | close => simp [program, progClose]
  | setFrequency hz => simp [program, progSetFrequency, Upd.Fits]
  | setSpreadingFactor sf => simp [program, progSetSpreadingFactor]
  | setBandwidth index => simp [program, progSetBandwidth]
  | setCodingRate denominator => simp [program, progSetCodingRate]
  | setPreambleLength length => simp [program, progSetPreambleLength]
  | setSyncWord word => simp [program, progSetSyncWord]
  | setCrc enable => simp [program, progSetCrc]
  | setTxPower level => simp [program, progSetTxPower]
  | setDioMapping pin mode => simp [program, progSetDioMapping]
  | getFrequency => simp [program, progGetFrequency]
  | getSpreadingFactor => simp [program, progGetSpreadingFactor]
  | getBandwidth => simp [program, progGetBandwidth]
  | getCodingRate => simp [program, progGetCodingRate]
  | getPreambleLength => simp [program, progGetPreambleLength]
  | getSyncWord => simp [program, progGetSyncWord]
  | getCrc => simp [program, progGetCrc]
  | getTxPower => simp [program, progGetTxPower]
  | getDioMapping pin => simp [program, progGetDioMapping]
  | modeSleep | modeStandby | modeReceive | modeTransmit => simp [program, progMode]
  | setExplicitHeader => simp [program, progSetExplicitHeader, Upd.Fits]
  | setImplicitHeader size => simp [program, progSetImplicitHeader, Upd.Fits]
  | sendPacket len => exact progSendPacket_fits _ c len
  | receivePacket capacity => exact progReceivePacket_fits _ c capacity
  | pollReceived => simp [program, progPollReceived]
  | getIrqFlags => simp [program, progGetIrqFlags]
  | packetLostCount => simp [program, progPacketLostCount]
  | packetRssi => simp [program, progPacketRssi]
  | packetSnr => simp [program, progPacketSnr]
  | dumpRegisters => exact progDumpFrom_fits _ c (Nat.zero_add _).le

theorem wordProgram_fits (c : Config) (w : Cmd48) : (wordProgram c w).Fits c.dumpCount := by
  unfold wordProgram
  split
  · exact program_fits c _
  · trivial

/-! ## Every step of the sequencer keeps the buffers inside -/

/-- What stands before the first answer is part of the pseudocode. -/
theorem Prog.Fits.remaining_nil {n : Nat} {p : Prog} (h : p.Fits n) (r : Radio) : (p.remaining r []).Fits n := by
  induction p generalizing r with
  | update u p ih => exact ih h.2 _
  | ask k ih => exact ih r (h r) r
  | _ => exact h

theorem State.BuffersInside.settle {p : Prog} {s : State} (hs : s.BuffersInside) (hp : p.Fits s.config.dumpCount) :
    (p.settle s).BuffersInside := by
  induction p generalizing s with
  | update u p ih => exact ih (hs.apply hp.1) hp.2
  | ask k ih => exact ih s.radio hs (hp s.radio)
  | _ => exact hs

/-- The invariant at the grain of R5: buffers inside their arrays, and a command in flight follows its pseudocode, what is left of it
fitting. -/
structure State.Sound (s : State) : Prop where
  config : s.config.wf = true
  buffers : s.BuffersInside
  inFlight : s.seq.busy = true → s.InStep ∧ s.remaining.Fits s.config.dumpCount

theorem State.Sound.of_inv {s : State} (h : s.inv = true) : s.Sound := by
  obtain ⟨hwf, hseq, hbuf⟩ := s.inv_iff.mp h
  exact ⟨hwf, hbuf, fun hb => by simp [hseq, Seq.idle] at hb⟩

/-- A sound state whose sequencer is cleared is a good state. -/
theorem State.Sound.inv {s : State} (h : s.Sound) (hseq : s.seq = Seq.idle) : s.inv = true :=
  s.inv_iff.mpr ⟨h.config, hseq, h.buffers⟩

theorem State.Sound.popInput {s : State} (h : s.Sound) : s.popInput.Sound :=
  ⟨h.config, ⟨h.buffers.tx, h.buffers.rx, h.buffers.dump⟩, h.inFlight⟩

theorem State.Sound.hardReset {s : State} (h : s.Sound) : s.hardReset.Sound :=
  ⟨h.config, ⟨h.buffers.tx, h.buffers.rx, h.buffers.dump⟩, fun hb => by simp [Seq.idle] at hb⟩

theorem State.Sound.deliver {s : State} (h : s.Sound) (st : Status) (d : Word) : (s.deliver st d).Sound :=
  ⟨h.config, h.buffers.deliver st d, fun hb => by simp [Seq.idle] at hb⟩

theorem State.Sound.acceptStep {s : State} (h : s.Sound) (w : Cmd48) : (s.acceptStep w).Sound := by
  obtain ⟨-, -, -, -, hconfig, -⟩ := Prog.settle_frame (wordProgram s.config w) (s.accept w)
  have hfits := wordProgram_fits s.config w
  have hbuf : (s.accept w).BuffersInside := ⟨h.buffers.tx, h.buffers.rx, h.buffers.dump⟩
  have hc : (s.acceptStep w).config = s.config := hconfig
  obtain ⟨hin, hrem⟩ := s.acceptStep_inStep w
  refine ⟨hc ▸ h.config, hbuf.settle hfits, fun _ => ⟨hin, ?_⟩⟩
  rw [hrem, hc]
  exact hfits.remaining_nil s.radio

theorem State.Sound.tick {s : State} (h : s.Sound) : s.tick.Sound := by
  cases hb : s.seq.busy with
  | false => simpa [State.tick, hb] using h
  | true =>
    obtain ⟨hin, hfits⟩ := h.inFlight hb
    rcases State.tick_cases hb with ⟨st, d, ht⟩ | ⟨op, k, hr, ht⟩
    · rw [ht]; exact h.deliver st d
    · obtain ⟨-, hin', hrem⟩ := State.tick_issue s hin op k hr
      rw [hr] at hfits
      have hk : (k (s.reply op)).Fits s.config.dumpCount := hfits _ (s.reply_answers op)
      have hc : s.tick.config = s.config := by
        obtain ⟨-, -, -, -, hconfig, -⟩ := Prog.settle_frame (k (s.reply op)) (s.transact op)
        rw [ht]; exact hconfig
      refine ⟨hc ▸ h.config, ht ▸ (h.buffers.transact op).settle hk, fun _ => ⟨hin', ?_⟩⟩
      rw [hrem, hc]
      exact hk.remaining_nil s.radio

theorem State.Sound.ticks {s : State} (h : s.Sound) (n : Nat) : (State.ticks n s).Sound := by
  induction n generalizing s with
  | zero => exact h
  | succ n ih => exact ih h.tick

/-! ## Every step of the machine -/

/-- Every word is accepted and run, an illegal one included (R105). -/
theorem runWord_eq_run (w : Cmd48) (s : State) : runWord w s = .next ((wordProgram s.config w).run (s.accept w)) := by
  unfold runWord wordProgram
  cases decode w with
  | error e => rfl
  | ok i => exact exec_eq_run i (s.accept w)

/-- A command from acceptance to response, by its steps. -/
theorem State.Sound.runWord {s t : State} (h : s.Sound) {w : Cmd48} (ht : runWord w s = .next t) : t.inv = true := by
  rw [runWord_eq_run] at ht
  cases ht
  obtain ⟨-, -, hseq, -⟩ := Prog.run_frame (wordProgram s.config w) (s.accept w)
  refine State.Sound.inv ?_ hseq
  rw [← s.ticks_acceptStep w]
  exact (h.acceptStep w).ticks _

theorem hostMove_inv {s t : State} (h : s.inv = true) (ht : hostMove s = .next t) : t.inv = true := by
  have hs := State.Sound.of_inv h
  obtain ⟨hwf, hseq, hbuf⟩ := s.inv_iff.mp h
  unfold hostMove at ht
  split at ht
  · cases ht; exact h
  · exact hs.popInput.runWord ht
  · cases ht; exact State.inv_iff _ |>.mpr ⟨hwf, hseq, hs.popInput.buffers.loadTx _⟩
  · cases ht; exact hs.popInput.hardReset.inv rfl
  · cases ht; exact ((hs.popInput.acceptStep _).ticks _).hardReset.inv rfl

/-- Settles O14: a good state is idle, so a step is a move of the host, and each move keeps the invariant. -/
theorem stepKeepsInvariant : Obligations.StepKeepsInvariant := by
  intro s t h ht
  obtain ⟨hwf, hseq, -⟩ := s.inv_iff.mp h
  have hidle : s.seq.busy = false := by rw [hseq]; rfl
  rw [step, hwf, if_pos rfl, advance, hidle, if_neg Bool.false_ne_true] at ht
  exact hostMove_inv h ht

end Sys2Proof.Machine
end

section
/-! PROOFS. One step of the machine, by what the RCE finds at its ports (10_state R26, R27), and reset (R61, R250). -/

namespace Sys2Proof.Machine

/-! ## The step, case by case -/

/-- While `busy = 1` a step finishes the command in flight (R27; logs 1, 23). -/
theorem step_of_busy {s : State} (hwf : s.config.wf = true) (hb : s.seq.busy = true) : step s = .next s.finish := by
  rw [step, if_pos hwf, advance, if_pos hb]

/-- While `busy = 0` a step is the host's next move (R27, R250). -/
theorem step_of_idle {s : State} (hwf : s.config.wf = true) (hb : s.seq.busy = false) : step s = hostMove s := by
  rw [step, if_pos hwf, advance, hb, if_neg Bool.false_ne_true]

theorem hostMove_command {s : State} {w : Cmd48} {rest : List Input} (h : s.inputs = .command w :: rest) :
    hostMove s = runWord w s.popInput := by
  simp only [hostMove, h]

theorem hostMove_reset {s : State} {rest : List Input} (h : s.inputs = .reset :: rest) :
    hostMove s = .next s.popInput.hardReset := by
  simp only [hostMove, h]

theorem runWord_of_decode {w : Cmd48} {i : Instr} (h : decode w = .ok i) (s : State) : runWord w s = exec i (s.accept w) := by
  simp only [runWord, h]

theorem State.popInput_of_inputs {s : State} {m : Input} {rest : List Input} (h : s.inputs = m :: rest) :
    s.popInput = { s with inputs := rest } := by
  simp only [State.popInput, h, List.tail_cons]

/-! ## Commands at the port -/

/-- Settles O1: an idle RCE takes the host's move, which is the word, and runs it after acceptance. -/
theorem stepRunsDecodedCommand : Obligations.StepRunsDecodedCommand := by
  intro s w rest i hwf hb hin hd
  calc step s = runWord w s.popInput := by rw [step_of_idle hwf hb, hostMove_command hin]
    _ = exec i (s.popInput.accept w) := runWord_of_decode hd _
    _ = exec i (State.accept { s with inputs := rest } w) := by rw [State.popInput_of_inputs hin]

/-- Settles O18: a command runs its pseudocode, which delivers one response and leaves the sequencer idle. -/
theorem everyCommandRespondsOnce : Obligations.EveryCommandRespondsOnce := by
  intro i s
  obtain ⟨⟨r, hresponses⟩, -, hseq, -⟩ := Prog.run_frame (program s.config i) s
  exact ⟨_, r, exec_eq_run i s, hresponses, by rw [hseq]; rfl⟩

/-- Settles O11: a busy RCE runs what is left of the command in flight, which leaves the host's moves where they are. -/
theorem busyRceAcceptsNothing : Obligations.BusyRceAcceptsNothing := by
  intro s hwf hb
  obtain ⟨⟨r, hresponses⟩, -, hseq, -, hinputs, -⟩ := Prog.run_frame s.remaining s
  exact ⟨s.finish, r, step_of_busy hwf hb, hinputs, hresponses, by rw [State.finish, hseq]; rfl⟩

/-! ## Reset -/

/-- Settles O7: `State.reset` is written with these values. -/
theorem resetRegisterValues : Obligations.ResetRegisterValues := ⟨rfl, rfl, rfl, rfl⟩

/-- Settles O8: an idle RCE takes the host's move, which is the reset. -/
theorem hardwareResetSetsRegistersOnly : Obligations.HardwareResetSetsRegistersOnly := by
  intro s rest hwf hb hin
  refine ⟨s.popInput.hardReset, by rw [step_of_idle hwf hb, hostMove_reset hin], rfl, rfl, rfl, rfl, rfl, rfl, ?_,
    fun _ => rfl, fun _ => rfl, fun _ => rfl⟩
  rw [State.hardReset_inputs, State.popInput_of_inputs hin]

/-- R6, R7: the default parameters meet R7's constraints. -/
theorem defaultConfig_wf : Config.default.wf = true := by decide

/-- Settles O13: the default parameters are good, the sequencer is idle and the buffers are empty. -/
theorem resetMeetsInvariant : Obligations.ResetMeetsInvariant :=
  State.reset.inv_iff.mpr ⟨defaultConfig_wf, rfl, ⟨⟨rfl, rfl⟩, ⟨rfl, rfl⟩, ⟨rfl, rfl⟩⟩⟩

end Sys2Proof.Machine
end

section
/-! PROOFS. Which operations a command's pseudocode issues and which updates it makes, by its text alone; and what follows for RadioState,
the host buffers and the addresses on the port (10_state R21 to R24, R28, R31). -/

namespace Sys2Proof.Machine

/-! ## Operations and updates of a pseudocode -/

/-- Every operation the pseudocode can issue meets `O`, and every update it can make meets `U`. -/
def Prog.Only (O : Op → Prop) (U : Upd → Prop) : Prog → Prop
  | .respond _ _ => True
  | .respondPending => True
  | .issue op k => O op ∧ ∀ a, (k a).Only O U
  | .update u p => U u ∧ p.Only O U
  | .ask k => ∀ r, (k r).Only O U

/-- What every operation and update of a pseudocode keeps, and the delivery of a response keeps, running it keeps. -/
theorem Prog.Only.run {O : Op → Prop} {U : Upd → Prop} {p : Prog} (hp : p.Only O U) {P : State → Prop}
    (hissue : ∀ s op, O op → P s → P (s.transact op)) (hupdate : ∀ s u, U u → P s → P (s.apply u))
    (hrespond : ∀ s st d, P s → P (s.deliver st d)) {s : State} (hs : P s) : P (p.run s) := by
  induction p generalizing s with
  | respond st d => exact hrespond s st d hs
  | respondPending => exact hrespond s s.seq.pending 0 hs
  | issue op k ih => exact ih _ (hp.2 _) (hissue s op hp.1 hs)
  | update u p ih => exact ih hp.2 (hupdate s u hp.1 hs)
  | ask k ih => exact ih _ (hp s.radio) hs

/-- An answer is `ok` with some data, or `fail`. -/
theorem Answer.forall (P : Answer → Prop) : (∀ a, P a) ↔ (∀ d, P (.ok d)) ∧ P .fail :=
  ⟨fun h => ⟨fun _ => h _, h _⟩, fun ⟨hok, hfail⟩ a => by cases a with
    | ok d => exact hok d
    | fail => exact hfail⟩

section
variable {O : Op → Prop} {U : Upd → Prop}

@[simp] theorem respond_only (st : Status) (d : Word) : (Prog.respond st d).Only O U ↔ True := Iff.rfl

@[simp] theorem respondPending_only : Prog.respondPending.Only O U ↔ True := Iff.rfl

@[simp] theorem raise_only (st : Status) : (raise st).Only O U ↔ True := Iff.rfl

@[simp] theorem raiseWith_only (st : Status) (d : Word) : (raiseWith st d).Only O U ↔ True := Iff.rfl

@[simp] theorem update_only (u : Upd) (p : Prog) : (Prog.update u p).Only O U ↔ U u ∧ p.Only O U := Iff.rfl

@[simp] theorem ask_only (k : Radio → Prog) : (Prog.ask k).Only O U ↔ ∀ r, (k r).Only O U := Iff.rfl

@[simp] theorem ite_only (P : Prop) [Decidable P] (p q : Prog) :
    (if P then p else q).Only O U ↔ if P then p.Only O U else q.Only O U := by
  split <;> rfl

@[simp] theorem regWriteElse_only (f : Prog) (a : Addr) (v : Byte) (k : Prog) :
    (regWriteElse f a v k).Only O U ↔ O (.write a v) ∧ k.Only O U ∧ f.Only O U := by
  simp [regWriteElse, Prog.Only, Answer.forall]

@[simp] theorem regWrite_only (a : Addr) (v : Byte) (k : Prog) : (regWrite a v k).Only O U ↔ O (.write a v) ∧ k.Only O U := by
  simp [regWrite]

/-- Every byte can be the one an `ok` answer begins with. -/
theorem forall_headD_iff (P : Byte → Prop) : (∀ d : List Byte, P (d.headD 0)) ↔ ∀ b, P b :=
  ⟨fun h b => h [b], fun h _ => h _⟩

@[simp] theorem regReadElse_only (f : Prog) (a : Addr) (k : Byte → Prog) :
    (regReadElse f a k).Only O U ↔ O (.read a) ∧ (∀ b, (k b).Only O U) ∧ f.Only O U := by
  simp only [regReadElse, Prog.Only, Answer.forall, forall_headD_iff fun b => (k b).Only O U]

@[simp] theorem regRead_only (a : Addr) (k : Byte → Prog) : (regRead a k).Only O U ↔ O (.read a) ∧ ∀ b, (k b).Only O U := by
  simp [regRead]

@[simp] theorem rmw_only (a : Addr) (mask val : Byte) (k : Prog) :
    (rmw a mask val k).Only O U ↔ O (.read a) ∧ (∀ old, O (.write a (rmwByte old mask val))) ∧ k.Only O U := by
  simp [rmw, forall_and]

@[simp] theorem busInit_only (k : Prog) : (busInit k).Only O U ↔ O .busInit ∧ k.Only O U := by
  simp [busInit, Prog.Only, Answer.forall]

@[simp] theorem delay_only (ms : Nat) (k : Prog) : (delay ms k).Only O U ↔ O (.delay ms) ∧ k.Only O U :=
  and_congr_right' ⟨fun h => h .fail, fun h _ => h⟩

@[simp] theorem cleanupWrite_only (a : Addr) (v : Byte) (onOk : Prog → Prog) (k : Prog) :
    (cleanupWrite a v onOk k).Only O U ↔ O (.write a v) ∧ (onOk k).Only O U ∧ U .cleanupFailed ∧ k.Only O U := by
  simp [cleanupWrite, Prog.Only, Answer.forall]

@[simp] theorem setModeElse_only (f : Prog) (c : Config) (m : Mode) (k : Prog) :
    (setModeElse f c m k).Only O U ↔ O (.write c.addrOpMode (modeByte c m)) ∧ (U (.setMode m) ∧ k.Only O U) ∧ f.Only O U := by
  simp [setModeElse]

@[simp] theorem setMode_only (c : Config) (m : Mode) (k : Prog) :
    (setMode c m k).Only O U ↔ O (.write c.addrOpMode (modeByte c m)) ∧ U (.setMode m) ∧ k.Only O U := by
  simp [setMode]

@[simp] theorem burstWriteElse_only (f : Prog) (a : Addr) (n next : Nat) (k : Prog) :
    (burstWriteElse f a n next k).Only O U ↔
      if n = 0 then U (.goto next) ∧ k.Only O U else O (.burstWrite a n) ∧ k.Only O U ∧ f.Only O U := by
  simp [burstWriteElse, Prog.Only, Answer.forall]

@[simp] theorem burstRead_only (a : Addr) (n next : Nat) (k : Prog) :
    (burstRead a n next k).Only O U ↔
      if n = 0 then U (.goto next) ∧ k.Only O U
      else O (.burstRead a n) ∧ ((∀ d, U (.storeRx d)) ∧ k.Only O U) ∧ U (.spoilRx n) := by
  simp [burstRead, Prog.Only, Answer.forall, forall_and]

end

/-! ## What each command may do -/

/-- The register an operation addresses, if it addresses one (R70 to R76). -/
def Op.address : Op → Option Addr
  | .busInit => none
  | .write a _ => some a
  | .read a => some a
  | .burstWrite a _ => some a
  | .burstRead a _ => some a
  | .delay _ => none

theorem Op.onPort_address (tx : Memory) (op : Op) : (op.onPort tx).address = op.address := by
  cases op <;> rfl

/-- R31, R204: the addresses a command may put on the port. -/
def MayAddress (c : Config) (i : Instr) (a : Addr) : Prop :=
  if i = .dumpRegisters then ∃ n, n < c.dumpCount ∧ a = BitVec.ofNat 8 n else a ∈ c.namedAddresses

/-- An operation keeps to the addresses of its command. -/
def MayIssue (c : Config) (i : Instr) (op : Op) : Prop := ∀ a, op.address = some a → MayAddress c i a

section
variable (c : Config) (i : Instr)

@[simp] theorem mayIssue_busInit : MayIssue c i .busInit ↔ True := by simp [MayIssue, Op.address]

@[simp] theorem mayIssue_delay (ms : Nat) : MayIssue c i (.delay ms) ↔ True := by simp [MayIssue, Op.address]

@[simp] theorem mayIssue_write (a : Addr) (v : Byte) : MayIssue c i (.write a v) ↔ MayAddress c i a := by
  simp [MayIssue, Op.address]

@[simp] theorem mayIssue_read (a : Addr) : MayIssue c i (.read a) ↔ MayAddress c i a := by
  simp [MayIssue, Op.address]

@[simp] theorem mayIssue_burstWrite (a : Addr) (n : Nat) : MayIssue c i (.burstWrite a n) ↔ MayAddress c i a := by
  simp [MayIssue, Op.address]

@[simp] theorem mayIssue_burstRead (a : Addr) (n : Nat) : MayIssue c i (.burstRead a n) ↔ MayAddress c i a := by
  simp [MayIssue, Op.address]

end

/-- R21 to R24, R177, R213, R190, R204: which commands make an update of RadioState, of `rxbuf` or of `dumpbuf`; the sequencer's own
fields are any command's. -/
def MayMake (i : Instr) : Upd → Prop
  | .setMode _ =>
    i = .modeSleep ∨ i = .modeStandby ∨ i = .modeReceive ∨ i = .modeTransmit ∨ i = .driverInit ∨ i = .close ∨
      (∃ n, i = .sendPacket n) ∨ ∃ n, i = .receivePacket n
  | .setHeader _ => i = .setExplicitHeader ∨ ∃ n, i = .setImplicitHeader n
  | .setPayloadSize _ => ∃ n, i = .setImplicitHeader n
  | .setFrequency _ => ∃ f, i = .setFrequency f
  | .countLost => ∃ n, i = .sendPacket n
  | .storeRx _ | .spoilRx _ => ∃ cap, i = .receivePacket cap
  | .storeDump _ _ => i = .dumpRegisters
  | .goto _ | .nextIteration | .setPending _ | .cleanupFailed => True

/-- A pseudocode keeps to what its command may do. -/
abbrev Prog.KeepsTo (c : Config) (i : Instr) (p : Prog) : Prop := p.Only (MayIssue c i) (MayMake i)

theorem lengthRegister_mem (c : Config) (h : HeaderMode) : lengthRegister c h ∈ c.namedAddresses := by
  cases h <;> simp [lengthRegister, Config.namedAddresses]

theorem dioAddr_mem (c : Config) (pin : Byte) : dioAddr c pin ∈ c.namedAddresses := by
  unfold dioAddr
  split <;> simp [Config.namedAddresses]

theorem progPollVersion_keepsTo (c : Config) (k : Nat) : (progPollVersion c k).KeepsTo c .driverInit := by
  induction k with
  | zero => trivial
  | succ k ih =>
    simp [progPollVersion, progInitTail, MayMake, MayAddress, Config.namedAddresses, ih]

theorem progCleanup_keepsTo (c : Config) (len : Byte) : (progCleanup c).KeepsTo c (.sendPacket len) := by
  simp [progCleanup, MayMake, MayAddress, Config.namedAddresses]

theorem progPollTxDone_keepsTo (c : Config) (len : Byte) (k : Nat) : (progPollTxDone c k).KeepsTo c (.sendPacket len) := by
  induction k with
  | zero => simp [progPollTxDone, MayMake, progCleanup_keepsTo]
  | succ k ih =>
    simp [progPollTxDone, MayMake, MayAddress, Config.namedAddresses, progCleanup_keepsTo, ih]

theorem progSendPacket_keepsTo (c : Config) (len : Byte) : (progSendPacket c len).KeepsTo c (.sendPacket len) := by
  simp [progSendPacket, MayMake, MayAddress, Config.namedAddresses, progPollTxDone_keepsTo]

theorem progReceivePacket_keepsTo (c : Config) (cap : BitVec 32) : (progReceivePacket c cap).KeepsTo c (.receivePacket cap) := by
  have hlen (h : HeaderMode) : MayAddress c (.receivePacket cap) (lengthRegister c h) := lengthRegister_mem c h
  simp only [progReceivePacket, regRead_only, regWrite_only, ite_only, raise_only, ask_only, setMode_only, burstRead_only,
    mayIssue_read, mayIssue_write, mayIssue_burstRead, hlen]
  simp [MayMake, MayAddress, Config.namedAddresses]

/-- The dump from address `j` on with `k` addresses left reads below `j + k` (R204). -/
theorem progDumpFrom_keepsTo (c : Config) {j k : Nat} (h : j + k ≤ c.dumpCount) :
    (progDumpFrom c j k).KeepsTo c .dumpRegisters := by
  induction k generalizing j with
  | zero => trivial
  | succ k ih =>
    have hj : MayAddress c .dumpRegisters (BitVec.ofNat addrBits j) := ⟨j, by omega, rfl⟩
    simp [progDumpFrom, MayMake, hj, ih (j := j + 1) (by omega)]

/-- Every command's pseudocode keeps to what the command may do. -/
theorem program_keepsTo (c : Config) (i : Instr) : (program c i).KeepsTo c i := by
  have hdio := dioAddr_mem c
  cases i with
  | driverInit => simp [program, progDriverInit, progPollVersion_keepsTo]
  | close => simp [program, progClose, MayMake, MayAddress, Config.namedAddresses]
  | setFrequency hz => simp [program, progSetFrequency, MayMake, MayAddress, Config.namedAddresses]
  | setSpreadingFactor sf => simp [program, progSetSpreadingFactor, MayAddress, Config.namedAddresses]
  | setBandwidth index => simp [program, progSetBandwidth, MayAddress, Config.namedAddresses]
  | setCodingRate denominator => simp [program, progSetCodingRate, MayAddress, Config.namedAddresses]
  | setPreambleLength length => simp [program, progSetPreambleLength, MayAddress, Config.namedAddresses]
  | setSyncWord word => simp [program, progSetSyncWord, MayAddress, Config.namedAddresses]
  | setCrc enable => simp [program, progSetCrc, MayAddress, Config.namedAddresses]
  | setTxPower level => simp [program, progSetTxPower, MayAddress, Config.namedAddresses]
  | setDioMapping pin mode => simp [program, progSetDioMapping, MayAddress, hdio]
  | getFrequency => simp [program, progGetFrequency, MayAddress, Config.namedAddresses]
  | getSpreadingFactor => simp [program, progGetSpreadingFactor, MayAddress, Config.namedAddresses]
  | getBandwidth => simp [program, progGetBandwidth, MayAddress, Config.namedAddresses]
  | getCodingRate => simp [program, progGetCodingRate, MayAddress, Config.namedAddresses]
  | getPreambleLength => simp [program, progGetPreambleLength, MayAddress, Config.namedAddresses]
  | getSyncWord => simp [program, progGetSyncWord, MayAddress, Config.namedAddresses]
  | getCrc => simp [program, progGetCrc, MayAddress, Config.namedAddresses]
  | getTxPower => simp [program, progGetTxPower, MayAddress, Config.namedAddresses]
  | getDioMapping pin => simp [program, progGetDioMapping, MayAddress, hdio]
  | modeSleep | modeStandby | modeReceive | modeTransmit =>
    simp [program, progMode, MayMake, MayAddress, Config.namedAddresses]
  | setExplicitHeader => simp [program, progSetExplicitHeader, MayMake, MayAddress, Config.namedAddresses]
  | setImplicitHeader size => simp [program, progSetImplicitHeader, MayMake, MayAddress, Config.namedAddresses]
  | sendPacket len => exact progSendPacket_keepsTo c len
  | receivePacket capacity => exact progReceivePacket_keepsTo c capacity
  | pollReceived => simp [program, progPollReceived, MayAddress, Config.namedAddresses]
  | getIrqFlags => simp [program, progGetIrqFlags, MayAddress, Config.namedAddresses]
  | packetLostCount => simp [program, progPacketLostCount]
  | packetRssi => simp [program, progPacketRssi, MayAddress, Config.namedAddresses]
  | packetSnr => simp [program, progPacketSnr, MayAddress, Config.namedAddresses]
  | dumpRegisters => exact progDumpFrom_keepsTo c (Nat.zero_add _).le

/-! ## What follows for the state -/

/-- What every permitted operation and update of a command keeps, and the delivery of a response keeps, the command keeps. -/
theorem exec_keeps {i : Instr} {s t : State} (he : exec i s = .next t) {P : State → Prop}
    (hissue : ∀ u op, MayIssue s.config i op → P u → P (u.transact op)) (hupdate : ∀ u x, MayMake i x → P u → P (u.apply x))
    (hrespond : ∀ u st d, P u → P (u.deliver st d)) (hs : P s) : P t := by
  rw [exec_eq_run] at he
  cases he
  exact (program_keepsTo s.config i).run hissue hupdate hrespond hs

/-- A part of RadioState that none of a command's updates changes is as before. -/
theorem exec_keeps_radio {α : Type} (f : Radio → α) {i : Instr} {s t : State} (he : exec i s = .next t)
    (hf : ∀ x r, MayMake i x → f (x.onRadio r) = f r) : f t.radio = f s.radio :=
  exec_keeps he (P := fun u => f u.radio = f s.radio) (fun _ _ _ h => h) (fun _ x hx h => (hf x _ hx).trans h) (fun _ _ _ h => h) rfl

theorem exec_keeps_rxbuf {i : Instr} {s t : State} (he : exec i s = .next t) (hi : ∀ cap, i ≠ .receivePacket cap) :
    t.rxbuf = s.rxbuf := by
  refine exec_keeps he (P := fun u => u.rxbuf = s.rxbuf) (fun _ _ _ h => h) (fun u x hx h => ?_) (fun _ _ _ h => h) rfl
  cases x with
  | storeRx bytes | spoilRx n => obtain ⟨cap, rfl⟩ := hx; exact absurd rfl (hi cap)
  | _ => exact h

theorem exec_keeps_dumpbuf {i : Instr} {s t : State} (he : exec i s = .next t) (hi : i ≠ .dumpRegisters) :
    t.dumpbuf = s.dumpbuf := by
  refine exec_keeps he (P := fun u => u.dumpbuf = s.dumpbuf) (fun _ _ _ h => h) (fun u x hx h => ?_) (fun _ _ _ h => h) rfl
  cases x with
  | storeDump j v => exact absurd hx hi
  | _ => exact h

/-- Settles O19: the frame of every run, and the one writer of each of `rxbuf` and `dumpbuf`. -/
theorem commandFrame : Obligations.CommandFrame := by
  intro i s t he
  have hrx := exec_keeps_rxbuf he
  have hdump := exec_keeps_dumpbuf he
  rw [exec_eq_run] at he
  cases he
  obtain ⟨-, htrace, -, hconfig, hinputs, htx⟩ := Prog.run_frame (program s.config i) s
  exact ⟨hconfig, hinputs, fun a => by rw [htx], htrace, fun hi a => by rw [hrx hi], fun hi a => by rw [hdump hi]⟩

/-- Settles O20: of the updates a command may make, only the named commands' change the register in question. -/
theorem radioStateWriters : Obligations.RadioStateWriters := by
  intro i s t he
  refine ⟨fun hi => ?_, fun hi => ?_, fun hi => ?_, fun hi => ?_, fun hi => ?_⟩
  · refine exec_keeps_radio Radio.headerMode he fun x r hx => ?_
    cases x with
    | setHeader h => simp [MayMake, hi] at hx
    | _ => rfl
  · refine exec_keeps_radio Radio.payloadSize he fun x r hx => ?_
    cases x with
    | setPayloadSize size => obtain ⟨n, rfl⟩ := hx; exact absurd rfl (hi n)
    | _ => rfl
  · refine exec_keeps_radio Radio.frequencyHz he fun x r hx => ?_
    cases x with
    | setFrequency f => obtain ⟨f, rfl⟩ := hx; exact absurd rfl (hi f)
    | _ => rfl
  · refine exec_keeps_radio Radio.lostPacketCount he fun x r hx => ?_
    cases x with
    | countLost => obtain ⟨n, rfl⟩ := hx; exact absurd rfl (hi n)
    | _ => rfl
  · refine exec_keeps_radio Radio.operatingMode he fun x r hx => ?_
    cases x with
    | setMode m => simp [MayMake, hi] at hx
    | _ => rfl

/-- The trace of `u` is that of `s` with further entries, all of which meet `T`. -/
def TraceGrownBy (T : Entry → Prop) (s u : State) : Prop := ∃ es, u.trace = s.trace ++ es ∧ ∀ e ∈ es, T e

theorem TraceGrownBy.refl (T : Entry → Prop) (s : State) : TraceGrownBy T s s := ⟨[], by simp, by simp⟩

theorem TraceGrownBy.transact {T : Entry → Prop} {s u : State} (h : TraceGrownBy T s u) {op : Op}
    (hop : T { txn := op.onPort u.txbuf, answer := u.reply op }) : TraceGrownBy T s (u.transact op) := by
  obtain ⟨es, htrace, hes⟩ := h
  refine ⟨es ++ [{ txn := op.onPort u.txbuf, answer := u.reply op }], by simp [htrace], ?_⟩
  simpa [or_imp, forall_and] using And.intro hes hop

theorem TraceGrownBy.newEntries {T : Entry → Prop} {s u : State} (h : TraceGrownBy T s u) : ∀ e ∈ newEntries s u, T e := by
  obtain ⟨es, htrace, hes⟩ := h
  rw [newEntries_of_trace htrace]
  exact hes

/-- What holds of every operation a command may issue, as it stands on the port, holds of every transaction the command adds. -/
theorem exec_newEntries {i : Instr} {s t : State} (he : exec i s = .next t) {T : Entry → Prop}
    (hT : ∀ tx op ans, MayIssue s.config i op → T { txn := op.onPort tx, answer := ans }) : ∀ e ∈ newEntries s t, T e :=
  TraceGrownBy.newEntries <|
    exec_keeps he (P := TraceGrownBy T s) (fun _ _ hop h => h.transact (hT _ _ _ hop)) (fun _ _ _ h => h) (fun _ _ _ h => h)
      (.refl T s)

/-- Settles O23: every transaction is an operation of the command, and that keeps to the command's addresses. -/
theorem onlyNamedRegistersAddressed : Obligations.OnlyNamedRegistersAddressed := by
  intro i s t he
  refine exec_newEntries he (T := fun e => ∀ a, e.txn.address = some a → MayAddress s.config i a) fun tx op ans hop => ?_
  rw [Op.onPort_address]
  exact hop

end Sys2Proof.Machine
end

section
/-! PROOFS. The command word (30_encoding R100 to R102, R105, R106): its fields, the opcode table, and decoding against encoding. -/

namespace Sys2Proof

/-! ## The fields of a word (R100) -/

/-- A word is its three fields. -/
theorem Cmd48.append_fields (w : Cmd48) : (w.op ++ w.b ++ w.a : Cmd48) = w := by
  have hob : (w.op ++ w.b : BitVec 16) = w.extractLsb' 32 16 := BitVec.extractLsb'_append_extractLsb'_eq_extractLsb' rfl
  rw [hob]
  exact (BitVec.extractLsb'_append_extractLsb'_eq_extractLsb' rfl).trans BitVec.extractLsb'_eq_self

@[simp] theorem Cmd48.op_and (w m : Cmd48) : Cmd48.op (w &&& m) = w.op &&& Cmd48.op m := BitVec.extractLsb'_and

@[simp] theorem Cmd48.b_and (w m : Cmd48) : Cmd48.b (w &&& m) = w.b &&& Cmd48.b m := BitVec.extractLsb'_and

@[simp] theorem Cmd48.a_and (w m : Cmd48) : Cmd48.a (w &&& m) = w.a &&& Cmd48.a m := BitVec.extractLsb'_and

/-- The word of a command is any word with its three fields. -/
theorem encode_eq {i : Instr} {w : Cmd48} (hop : i.opcode = w.op) (hb : i.operandB = w.b) (ha : i.operandA = w.a) :
    encode i = w := by
  rw [encode, hop, hb, ha, Cmd48.append_fields]

/-- Every command uses all bits of its opcode (R101). -/
theorem usedBits_op (op : Nat) : Cmd48.op (usedBits op) = BitVec.allOnes 8 := by
  unfold usedBits
  split <;> rfl

theorem Cmd48.op_and_usedBits (w : Cmd48) (op : Nat) : Cmd48.op (w &&& usedBits op) = w.op := by
  rw [Cmd48.op_and, usedBits_op]
  exact BitVec.and_allOnes

/-! ## Operands read from a word and put into one (R101) -/

@[simp] theorem low8_setWidth (v : Byte) : low8 (v.setWidth 32) = v :=
  (BitVec.extractLsb'_setWidth_of_le (by decide)).trans BitVec.extractLsb'_eq_self

@[simp] theorem low16_setWidth (v : BitVec 16) : low16 (v.setWidth 32) = v :=
  (BitVec.extractLsb'_setWidth_of_le (by decide)).trans BitVec.extractLsb'_eq_self

@[simp] theorem bit0_setWidth (v : Bool) : bit0 ((BitVec.ofBool v).setWidth 32) = v := by
  cases v <;> rfl

/-- The low `n` bits of a word, put back into a word, are the word under a mask of `n` bits. -/
theorem setWidth_extractLsb'_zero (a : Word) (n : Nat) :
    (a.extractLsb' 0 n).setWidth 32 = a &&& (BitVec.allOnes n).setWidth 32 := by
  ext k hk
  simp [hk, Bool.and_comm]

theorem setWidth_low8 (a : Word) : (low8 a).setWidth 32 = a &&& 0xFF := setWidth_extractLsb'_zero a 8

theorem setWidth_low16 (a : Word) : (low16 a).setWidth 32 = a &&& 0xFFFF := setWidth_extractLsb'_zero a 16

theorem setWidth_bit0 (a : Word) : (BitVec.ofBool (bit0 a)).setWidth 32 = a &&& 1 := by
  have hbit : BitVec.ofBool (bit0 a) = a.extractLsb' 0 1 := by
    ext k hk
    obtain rfl : k = 0 := by omega
    simp [bit0]
  rw [hbit]
  exact setWidth_extractLsb'_zero a 1

theorem fitsSext32_iff (v : Int) : fitsSext32 v = true ↔ -2147483648 ≤ v ∧ v ≤ 2147483647 := by
  simp [fitsSext32]

/-- An operand of 32 bits is read back as the integer it was (R101). -/
theorem sext32_ofInt {v : Int} (h : fitsSext32 v = true) : sext32 (BitVec.ofInt 32 v) = v := by
  obtain ⟨hlo, hhi⟩ := (fitsSext32_iff v).mp h
  exact BitVec.toInt_ofInt_eq_self (by decide) (by omega) (by omega)

theorem fitsSext32_sext32 (a : Word) : fitsSext32 (sext32 a) = true :=
  (fitsSext32_iff _).mpr ⟨BitVec.le_toInt a, Int.le_of_lt_add_one BitVec.toInt_lt⟩

theorem ofInt_sext32 (a : Word) : BitVec.ofInt 32 (sext32 a) = a := BitVec.ofInt_toInt

/-! ## The opcode table (R102, R105) -/

theorem decode_eq_ok_iff (w : Cmd48) (i : Instr) : decode w = .ok i ↔ decodeFields w.op.toNat w.b w.a = some i := by
  unfold decode
  split <;> simp_all

theorem decode_eq_error {w : Cmd48} (h : decodeFields w.op.toNat w.b w.a = none) : decode w = .error (.illegalOpcode w.op) := by
  simp only [decode, h]

/-- R105 lists the opcodes that R102 leaves out. -/
theorem decodeFields_eq_none_iff {op : Nat} (hop : op < 256) (b : Byte) (a : Word) :
    decodeFields op b a = none ↔ Machine.isIllegalOpcode op = true := by
  unfold decodeFields
  split
  case h_35 =>
    simp only [imp_false] at *
    simp [Machine.isIllegalOpcode]
    omega
  all_goals simp [Machine.isIllegalOpcode]

theorem decode_of_isIllegalOpcode {w : Cmd48} (h : Machine.isIllegalOpcode w.op.toNat = true) :
    decode w = .error (.illegalOpcode w.op) :=
  decode_eq_error ((decodeFields_eq_none_iff w.op.isLt _ _).mpr h)

/-- A word decodes exactly if R105 does not list its opcode. -/
theorem exists_decode_iff (w : Cmd48) : (∃ i, decode w = .ok i) ↔ Machine.isIllegalOpcode w.op.toNat = false := by
  simp only [decode_eq_ok_iff, ← Option.isSome_iff_exists, ← Option.ne_none_iff_isSome, ne_eq,
    decodeFields_eq_none_iff w.op.isLt, Bool.not_eq_true]

/-- A command comes from its own opcode alone. -/
theorem opcode_of_decodeFields {op : Nat} {b : Byte} {a : Word} {i : Instr} (h : decodeFields op b a = some i) :
    i.opcode.toNat = op := by
  unfold decodeFields at h
  split at h <;> cases h <;> rfl

/-! ## Decoding against encoding -/

/-- A command's opcode and operands say the command. -/
theorem decodeFields_operands {i : Instr} (h : i.wf = true) : decodeFields i.opcode.toNat i.operandB i.operandA = some i := by
  cases i with
  | setSpreadingFactor v => exact congrArg (some ∘ Instr.setSpreadingFactor) (sext32_ofInt h)
  | setBandwidth v => exact congrArg (some ∘ Instr.setBandwidth) (sext32_ofInt h)
  | setCodingRate v => exact congrArg (some ∘ Instr.setCodingRate) (sext32_ofInt h)
  | setTxPower v => exact congrArg (some ∘ Instr.setTxPower) (sext32_ofInt h)
  | setDioMapping pin v => exact congrArg (some ∘ Instr.setDioMapping pin) (sext32_ofInt h)
  | setPreambleLength n => exact congrArg (some ∘ Instr.setPreambleLength) (low16_setWidth n)
  | setSyncWord v => exact congrArg (some ∘ Instr.setSyncWord) (low8_setWidth v)
  | setImplicitHeader n => exact congrArg (some ∘ Instr.setImplicitHeader) (low8_setWidth n)
  | sendPacket n => exact congrArg (some ∘ Instr.sendPacket) (low8_setWidth n)
  | setCrc v => exact congrArg (some ∘ Instr.setCrc) (bit0_setWidth v)
  | _ => rfl

/-- R101: the bits of operand B that a command uses. -/
def Instr.maskB : Instr → Byte
  | .setDioMapping _ _ | .getDioMapping _ => BitVec.allOnes 8
  | _ => 0

/-- R101: the bits of operand A that a command uses. -/
def Instr.maskA : Instr → Word
  | .setFrequency _ | .setSpreadingFactor _ | .setBandwidth _ | .setCodingRate _ | .setTxPower _ | .setDioMapping _ _
  | .receivePacket _ => BitVec.allOnes 32
  | .setPreambleLength _ => 0xFFFF
  | .setSyncWord _ | .setImplicitHeader _ | .sendPacket _ => 0xFF
  | .setCrc _ => 1
  | _ => 0

theorem usedBits_opcode_b (i : Instr) : Cmd48.b (usedBits i.opcode.toNat) = i.maskB := by
  cases i <;> simp [Instr.opcode, dataBits, usedBits, Cmd48.b, Instr.maskB]

theorem usedBits_opcode_a (i : Instr) : Cmd48.a (usedBits i.opcode.toNat) = i.maskA := by
  cases i <;> simp [Instr.opcode, dataBits, usedBits, Cmd48.a, Instr.maskA]

/-- A command decoded is well formed, and its operands are those of the word without the bits its opcode ignores. -/
theorem operands_of_decodeFields {i : Instr} {b : Byte} {a : Word} (h : decodeFields i.opcode.toNat b a = some i) :
    i.wf = true ∧ i.operandB = b &&& i.maskB ∧ i.operandA = a &&& i.maskA := by
  cases i with
  | setFrequency v | receivePacket v =>
    cases h
    exact ⟨rfl, BitVec.and_zero.symm, BitVec.and_allOnes.symm⟩
  | setSpreadingFactor v | setBandwidth v | setCodingRate v | setTxPower v =>
    cases h
    exact ⟨fitsSext32_sext32 a, BitVec.and_zero.symm, (ofInt_sext32 a).trans BitVec.and_allOnes.symm⟩
  | setDioMapping pin v =>
    cases h
    exact ⟨fitsSext32_sext32 a, BitVec.and_allOnes.symm, (ofInt_sext32 a).trans BitVec.and_allOnes.symm⟩
  | getDioMapping pin =>
    cases h
    exact ⟨rfl, BitVec.and_allOnes.symm, BitVec.and_zero.symm⟩
  | setPreambleLength n =>
    cases h
    exact ⟨rfl, BitVec.and_zero.symm, setWidth_low16 a⟩
  | setSyncWord v | setImplicitHeader v | sendPacket v =>
    cases h
    exact ⟨rfl, BitVec.and_zero.symm, setWidth_low8 a⟩
  | setCrc v =>
    cases h
    exact ⟨rfl, BitVec.and_zero.symm, setWidth_bit0 a⟩
  | _ => exact ⟨rfl, BitVec.and_zero.symm, BitVec.and_zero.symm⟩

/-- No command, well formed or not, has a bit in an operand that its opcode ignores (R106). -/
theorem operands_and_masks (i : Instr) : i.operandB &&& i.maskB = i.operandB ∧ i.operandA &&& i.maskA = i.operandA := by
  cases i with
  | setFrequency v | receivePacket v => exact ⟨BitVec.zero_and, BitVec.and_allOnes⟩
  | setSpreadingFactor v | setBandwidth v | setCodingRate v | setTxPower v => exact ⟨BitVec.zero_and, BitVec.and_allOnes⟩
  | setDioMapping pin v => exact ⟨BitVec.and_allOnes, BitVec.and_allOnes⟩
  | getDioMapping pin => exact ⟨BitVec.and_allOnes, BitVec.zero_and⟩
  | setPreambleLength n =>
    exact ⟨BitVec.zero_and, (setWidth_low16 _).symm.trans (congrArg _ (low16_setWidth n))⟩
  | setSyncWord v | setImplicitHeader v | sendPacket v =>
    exact ⟨BitVec.zero_and, (setWidth_low8 _).symm.trans (congrArg _ (low8_setWidth v))⟩
  | setCrc v =>
    exact ⟨BitVec.zero_and, (setWidth_bit0 _).symm.trans (congrArg (fun u => (BitVec.ofBool u).setWidth 32) (bit0_setWidth v))⟩
  | _ => exact ⟨BitVec.zero_and, BitVec.zero_and⟩

/-- R106: the word of a command has every ignored bit 0. -/
theorem encode_and_usedBits (i : Instr) : encode i &&& usedBits i.opcode.toNat = encode i := by
  obtain ⟨hb, ha⟩ := operands_and_masks i
  symm
  apply encode_eq
  · rw [Cmd48.op_and_usedBits, encode_op]
  · rw [Cmd48.b_and, encode_b, usedBits_opcode_b, hb]
  · rw [Cmd48.a_and, encode_a, usedBits_opcode_a, ha]

/-- A command decoded comes from the word's opcode, is well formed, and encodes to the word without its ignored bits. -/
theorem encode_of_decode {w : Cmd48} {i : Instr} (h : decode w = .ok i) :
    i.opcode = w.op ∧ i.wf = true ∧ encode i = w &&& usedBits w.op.toNat := by
  rw [decode_eq_ok_iff] at h
  have hop : i.opcode = w.op := BitVec.eq_of_toNat_eq (opcode_of_decodeFields h)
  rw [← hop] at h ⊢
  obtain ⟨hwf, hb, ha⟩ := operands_of_decodeFields h
  refine ⟨rfl, hwf, encode_eq ?_ ?_ ?_⟩
  · rw [Cmd48.op_and_usedBits, hop]
  · rw [Cmd48.b_and, usedBits_opcode_b, hb]
  · rw [Cmd48.a_and, usedBits_opcode_a, ha]

/-! ## The obligations -/

/-- Settles O4: the fields of the word are the command's own, and they say the command. -/
theorem decodeEncodeRoundTrip : Obligations.DecodeEncodeRoundTrip := by
  intro i hwf
  rw [decode_eq_ok_iff, encode_op, encode_b, encode_a]
  exact decodeFields_operands hwf

/-- Settles O6, by R105's list of opcodes and by the operands that each opcode reads. -/
theorem decodesExactlyTheTable : Obligations.DecodesExactlyTheTable :=
  ⟨exists_decode_iff, fun _ _ h => (encode_of_decode h).2⟩

/-- Settles O5: a command decoded encodes to the word without its ignored bits, and that decodes to the command again; an illegal opcode
stands in the word without its ignored bits too. -/
theorem ignoredBitsHaveNoEffect : Obligations.IgnoredBitsHaveNoEffect := by
  refine ⟨fun w => ?_, fun i => ?_⟩
  · cases hop : Machine.isIllegalOpcode w.op.toNat with
    | true =>
      have hmasked : Machine.isIllegalOpcode (Cmd48.op (w &&& usedBits w.op.toNat)).toNat = true := by
        rwa [Cmd48.op_and_usedBits]
      rw [decode_of_isIllegalOpcode hop, decode_of_isIllegalOpcode hmasked, Cmd48.op_and_usedBits]
    | false =>
      obtain ⟨i, hi⟩ := (exists_decode_iff w).mpr hop
      obtain ⟨-, hwf, henc⟩ := encode_of_decode hi
      rw [hi, ← henc, decodeEncodeRoundTrip i hwf]
  · calc encode i &&& ~~~(usedBits i.opcode.toNat)
        = encode i &&& (usedBits i.opcode.toNat &&& ~~~(usedBits i.opcode.toNat)) := by
          rw [← BitVec.and_assoc, encode_and_usedBits]
      _ = 0 := by rw [BitVec.and_not_self]; exact BitVec.and_zero

/-- Settles O3, by evaluation of the decoder on the words. -/
theorem specWordsDecode : Obligations.SpecWordsDecode := by
  unfold Obligations.SpecWordsDecode
  decide

end Sys2Proof
end

section
/-! PROOFS. The answer to an illegal opcode (30_encoding R105), and the response word (R103, R104): what it carries, and that a failure
carries no data. -/

namespace Sys2Proof.Machine

/-! ## Illegal opcodes -/

theorem runWord_of_error {w : Cmd48} {e : DecodeError} (h : decode w = .error e) (s : State) :
    runWord w s = .next ((s.accept w).deliver .failure 0) := by
  simp only [runWord, h]
  rfl

/-- Settles O2: an idle RCE takes the host's move, which is the word, and the word decodes to no command. -/
theorem illegalOpcodeAnswersFailure : Obligations.IllegalOpcodeAnswersFailure := by
  intro s w rest hwf hb hin hop
  have hd := decode_of_isIllegalOpcode hop
  refine ⟨hd, ?_⟩
  calc step s = runWord w s.popInput := by rw [step_of_idle hwf hb, hostMove_command hin]
    _ = .next ((s.popInput.accept w).deliver .failure 0) := runWord_of_error hd _
    _ = .next ((State.accept { s with inputs := rest } w).deliver .failure 0) := by rw [State.popInput_of_inputs hin]

/-! ## The response word -/

theorem Response.word_status (r : Response) : r.word.extractLsb' 32 8 = r.status.code := BitVec.extractLsb'_append_eq_left

theorem Response.word_data (r : Response) : r.word.extractLsb' 0 32 = r.data := BitVec.extractLsb'_append_eq_right

theorem Status.code_le (st : Status) : st.code.toNat ≤ 0x0A := by
  cases st <;> decide

/-! ## Failures carry no data -/

/-- R103: a response that is no `OK` carries the data 0. -/
def SilentFailure (r : Response) : Prop := r.status ≠ .ok → r.data = 0

/-- Whatever the environment answers, the pseudocode ends in `OK` or in a failure without data. -/
def Prog.Silent (p : Prog) : Prop := ∀ tx es r pending, p.wp tx (fun _ _ resp => SilentFailure resp) es r pending

theorem silent_ok (d : Word) : (Prog.respond .ok d).Silent := fun _ _ _ _ h => absurd rfl h

theorem silent_raise (st : Status) : (raise st).Silent := fun _ _ _ _ _ => rfl

theorem silent_respondPending : Prog.respondPending.Silent := fun _ _ _ _ _ => rfl

section
variable {f k : Prog} {kb : Byte → Prog} {a : Addr} {v : Byte}

theorem Prog.Silent.update (hk : k.Silent) (u : Upd) : (Prog.update u k).Silent := fun _ _ _ _ => hk _ _ _ _

theorem Prog.Silent.ask {kr : Radio → Prog} (hk : ∀ r, (kr r).Silent) : (Prog.ask kr).Silent := fun _ _ r _ => hk r _ _ _ _

theorem Prog.Silent.regWriteElse (hf : f.Silent) (hk : k.Silent) : (regWriteElse f a v k).Silent :=
  fun _ _ _ _ => regWriteElse_wp (hk _ _ _ _) (hf _ _ _ _)

theorem Prog.Silent.regWrite (hk : k.Silent) : (regWrite a v k).Silent := .regWriteElse (silent_raise _) hk

theorem Prog.Silent.regRead (hk : ∀ b, (kb b).Silent) : (regRead a kb).Silent :=
  fun _ _ _ _ => regReadElse_wp (fun b => hk b _ _ _ _) (silent_raise _ _ _ _ _)

theorem Prog.Silent.rmw {mask : Byte} (hk : k.Silent) : (rmw a mask v k).Silent := .regRead fun _ => .regWrite hk

theorem Prog.Silent.busInit (hk : k.Silent) : (busInit k).Silent := fun _ _ _ _ => busInit_wp (hk _ _ _ _) fun _ => rfl

theorem Prog.Silent.delay {ms : Nat} (hk : k.Silent) : (delay ms k).Silent := fun _ _ _ _ => delay_wp (hk _ _ _ _)

theorem Prog.Silent.setModeElse {c : Config} {m : Mode} (hf : f.Silent) (hk : k.Silent) : (setModeElse f c m k).Silent :=
  .regWriteElse hf (hk.update _)

theorem Prog.Silent.setMode {c : Config} {m : Mode} (hk : k.Silent) : (setMode c m k).Silent := .setModeElse (silent_raise _) hk

theorem Prog.Silent.burstWriteElse {n next : Nat} (hf : f.Silent) (hk : k.Silent) : (burstWriteElse f a n next k).Silent :=
  fun _ _ _ _ => burstWriteElse_wp (fun _ => hk _ _ _ _) (fun _ => hk _ _ _ _) fun _ => hf _ _ _ _

theorem Prog.Silent.burstRead {n next : Nat} (hk : k.Silent) : (burstRead a n next k).Silent :=
  fun _ _ _ _ => burstRead_wp (fun _ => hk _ _ _ _) (fun _ _ _ => hk _ _ _ _) fun _ _ => rfl

theorem Prog.Silent.cleanupWrite {onOk : Prog → Prog} (hok : (onOk k).Silent) (hk : k.Silent) :
    (cleanupWrite a v onOk k).Silent :=
  fun _ _ _ _ => cleanupWrite_wp (hok _ _ _ _) (hk _ _ _ _)

theorem Prog.Silent.ite {P : Prop} [Decidable P] (hf : f.Silent) (hk : k.Silent) : (if P then f else k).Silent := by
  split
  · exact hf
  · exact hk

end

theorem progInitTail_silent (c : Config) : (progInitTail c).Silent :=
  .update (.setMode (.regWrite (.regWrite (.rmw (.regWrite (.setMode (silent_ok 0))))))) _

theorem progPollVersion_silent (c : Config) (n : Nat) : (progPollVersion c n).Silent := by
  induction n with
  | zero => exact silent_raise _
  | succ n ih => exact .update (.update (.regRead fun _ => .ite (progInitTail_silent c) (.delay ih)) _) _

/-- R184: what the cleanup ends in is the pending status, without data. -/
theorem progCleanup_silent (c : Config) : (progCleanup c).Silent :=
  have hirq := Prog.Silent.cleanupWrite silent_respondPending silent_respondPending
  .update (.cleanupWrite (.update hirq _) hirq) _

theorem progPollTxDone_silent (c : Config) (n : Nat) : (progPollTxDone c n).Silent := by
  have hcleanup := progCleanup_silent c
  induction n with
  | zero => exact hcleanup.update _
  | succ n ih =>
    refine .update (.update (fun _ _ _ _ => regReadElse_wp (fun b => ?_) (hcleanup.update _ _ _ _ _)) _) _
    exact Prog.Silent.ite (hcleanup.update _) (.delay ih) _ _ _ _

theorem progSendPacket_silent (c : Config) (len : Byte) : (progSendPacket c len).Silent :=
  have habort := silent_raise .failure
  .setModeElse habort <| .regWriteElse habort <| .burstWriteElse habort <| .regWriteElse habort <|
    .setModeElse habort <| .update (progPollTxDone_silent c c.pollCap) _

theorem progReceivePacket_silent (c : Config) (cap : BitVec 32) : (progReceivePacket c cap).Silent :=
  .regRead fun _ => .regWrite <| .ite (silent_raise _) <| .ite (silent_raise _) <| .ask fun _ => .regRead fun _ =>
    .setMode <| .regRead fun _ => .regWrite <| .burstRead (silent_ok _)

/-- Every command but the two that R103 excepts ends in `OK` or in a failure without data. -/
theorem program_silent (c : Config) {i : Instr} (hdump : i ≠ .dumpRegisters) (hpoll : i ≠ .pollReceived) :
    (program c i).Silent := by
  unfold program
  cases i with
  | dumpRegisters => exact absurd rfl hdump
  | pollReceived => exact absurd rfl hpoll
  | driverInit => exact .busInit (progPollVersion_silent c _)
  | close | modeSleep | modeStandby | modeReceive | modeTransmit => exact .setMode (silent_ok 0)
  | setFrequency hz => exact .update (.regWrite (.regWrite (.regWrite (silent_ok 0)))) _
  | setSpreadingFactor sf => exact .ite (.regWrite (.regWrite (.rmw (silent_ok 0)))) (.regWrite (.regWrite (.rmw (silent_ok 0))))
  | setBandwidth _ | setCodingRate _ | setCrc _ => exact .rmw (silent_ok 0)
  | setPreambleLength n => exact .regWrite (.regWrite (silent_ok 0))
  | setSyncWord _ | setTxPower _ => exact .regWrite (silent_ok 0)
  | setDioMapping pin mode => exact .ite (silent_raise _) (.rmw (silent_ok 0))
  | getFrequency => exact .regRead fun _ => .regRead fun _ => .regRead fun _ => silent_ok _
  | getBandwidth => exact .regRead fun _ => .ite (silent_raise _) (silent_ok _)
  | getPreambleLength => exact .regRead fun _ => .regRead fun _ => silent_ok _
  | getSpreadingFactor | getCodingRate | getSyncWord | getCrc | getTxPower | getIrqFlags | packetSnr =>
    exact .regRead fun _ => silent_ok _
  | getDioMapping pin => exact .ite (silent_raise _) (.regRead fun _ => silent_ok _)
  | setExplicitHeader => exact .rmw (.update (silent_ok 0) _)
  | setImplicitHeader size => exact .rmw (.regWrite (.update (.update (silent_ok 0) _) _))
  | sendPacket len => exact progSendPacket_silent c len
  | receivePacket cap => exact progReceivePacket_silent c cap
  | packetLostCount => exact .ask fun _ => silent_ok _
  | packetRssi => exact .regRead fun _ => .ask fun _ => silent_ok _

theorem Prog.Silent.exec {i : Instr} {s t : State} {r : Response} (hp : (program s.config i).Silent)
    (he : exec i s = .next t) (hr : t.responses = s.responses ++ [r]) : SilentFailure r := by
  obtain ⟨r', -, hr', hsilent⟩ := exec_wp he (hp s.txbuf [] s.radio s.seq.pending)
  obtain rfl : r' = r := by simpa [hr'] using hr
  exact hsilent

/-- Settles O26: the fields of the response word, the codes of R104, and the failures a command's pseudocode ends in. -/
theorem failureResponsesCarryNoData : Obligations.FailureResponsesCarryNoData :=
  fun _ s _ r he hr => ⟨r.word_status, r.word_data, r.status.code_le,
    fun hst hdump hpoll => (program_silent s.config hdump hpoll).exec he hr hst⟩

end Sys2Proof.Machine
end

section
/-! PROOFS. A failed transaction is the last of its command and decides the status (40_config R148, 92_eei_decisions D17). -/

namespace Sys2Proof.Machine

/-! ## Pseudocode that stops at a failure -/

/-- The status of a failed operation of its kind (R70 to R74, R223); a delay cannot fail (R76). -/
def Op.failureStatus : Op → Option Status
  | .busInit => some .busInitFailed
  | .write _ _ => some .regWriteFailed
  | .read _ => some .regReadFailed
  | .burstWrite _ _ => some .bufWriteFailed
  | .burstRead _ _ => some .bufReadFailed
  | .delay _ => none

theorem Op.onPort_failureStatus (tx : Memory) (op : Op) : (op.onPort tx).failureStatus = op.failureStatus := by
  cases op <;> rfl

/-- An operation that the environment can answer with `fail` has a failure status. -/
theorem State.failureStatus_of_reply {s : State} {op : Op} (h : s.reply op = .fail) : ∃ st, op.failureStatus = some st := by
  cases op with
  | delay ms => cases h
  | _ => exact ⟨_, rfl⟩

/-- The pseudocode issues nothing more and responds with the status `st`. -/
def Prog.EndsWith (st : Status) : Prog → Prop
  | .respond st' _ => st' = st
  | .respondPending => False
  | .issue _ _ => False
  | .update _ p => p.EndsWith st
  | .ask k => ∀ r, (k r).EndsWith st

theorem Prog.EndsWith.run {st : Status} {p : Prog} (h : p.EndsWith st) (s : State) :
    (p.run s).trace = s.trace ∧ ∃ d, (p.run s).responses = s.responses ++ [{ status := st, data := d }] := by
  induction p generalizing s with
  | respond st' d => obtain rfl : st' = st := h; exact ⟨rfl, d, rfl⟩
  | respondPending => exact h.elim
  | issue op k ih => exact h.elim
  | update u p ih => exact ih h (s.apply u)
  | ask k ih => exact ih s.radio (h s.radio) s

/-- Wherever an operation of the pseudocode is answered `fail`, it ends with the status of that operation (R148). -/
def Prog.StopsAtFailure : Prog → Prop
  | .respond _ _ => True
  | .respondPending => True
  | .issue op k => (∀ d, (k (.ok d)).StopsAtFailure) ∧ ∀ st, op.failureStatus = some st → (k .fail).EndsWith st
  | .update _ p => p.StopsAtFailure
  | .ask k => ∀ r, (k r).StopsAtFailure

/-- R148 for the entries of a whole command: one answered `fail` is the last, and the response carries its status. -/
def FailureIsLast (es : List Entry) (st : Status) : Prop :=
  ∀ pre e post, es = pre ++ e :: post → e.answer = .fail → post = [] ∧ e.txn.failureStatus = some st

theorem FailureIsLast.nil (st : Status) : FailureIsLast [] st := fun pre _ _ h => by simp at h

theorem FailureIsLast.singleton {e : Entry} {st : Status} (h : e.txn.failureStatus = some st) : FailureIsLast [e] st := by
  intro pre e' post hes _
  obtain ⟨rfl, rfl, rfl⟩ : pre = [] ∧ e' = e ∧ post = [] := by simpa [List.singleton_eq_append_iff] using hes
  exact ⟨rfl, h⟩

theorem FailureIsLast.cons {e : Entry} {es : List Entry} {st : Status} (he : e.answer ≠ .fail) (hes : FailureIsLast es st) :
    FailureIsLast (e :: es) st := by
  intro pre e' post h hfail
  cases pre with
  | nil => obtain ⟨rfl, -⟩ := List.cons.inj h; exact absurd hfail he
  | cons _ pre => exact hes pre e' post (List.cons.inj h).2 hfail

theorem Prog.StopsAtFailure.run {p : Prog} (hp : p.StopsAtFailure) (s : State) :
    ∃ r, (p.run s).responses = s.responses ++ [r] ∧ FailureIsLast (newEntries s (p.run s)) r.status := by
  induction p generalizing s with
  | respond st d => exact ⟨_, rfl, by simpa [newEntries, Prog.run] using FailureIsLast.nil st⟩
  | respondPending => exact ⟨_, rfl, by simpa [newEntries, Prog.run] using FailureIsLast.nil s.seq.pending⟩
  | issue op k ih =>
    rw [Prog.run, newEntries_run_transact]
    cases hreply : s.reply op with
    | ok d =>
      obtain ⟨r, hr, hlast⟩ := ih (.ok d) (hp.1 d) (s.transact op)
      exact ⟨r, hr, hlast.cons (by simp)⟩
    | fail =>
      obtain ⟨st, hst⟩ := State.failureStatus_of_reply hreply
      obtain ⟨htrace, d, hr⟩ := (hp.2 st hst).run (s.transact op)
      refine ⟨_, hr, ?_⟩
      rw [newEntries_of_trace (es := []) (by simp [htrace])]
      exact .singleton (by rw [Op.onPort_failureStatus, hst])
  | update u p ih => exact ih hp (s.apply u)
  | ask k ih => exact ih s.radio (hp s.radio) s

/-! ## The primitives stop at a failure -/

section
variable {k : Prog} {kb : Byte → Prog} {a : Addr} {v : Byte}

theorem stopsAtFailure_respond (st : Status) (d : Word) : (Prog.respond st d).StopsAtFailure := trivial

theorem Prog.StopsAtFailure.update (hk : k.StopsAtFailure) (u : Upd) : (Prog.update u k).StopsAtFailure := hk

theorem Prog.StopsAtFailure.ask {kr : Radio → Prog} (hk : ∀ r, (kr r).StopsAtFailure) : (Prog.ask kr).StopsAtFailure := hk

theorem Prog.StopsAtFailure.ite {P : Prop} [Decidable P] {q : Prog} (hq : q.StopsAtFailure) (hk : k.StopsAtFailure) :
    (if P then q else k).StopsAtFailure := by
  split
  · exact hq
  · exact hk

theorem Prog.StopsAtFailure.regWriteElse {f : Prog} (hf : f.EndsWith .regWriteFailed) (hk : k.StopsAtFailure) :
    (regWriteElse f a v k).StopsAtFailure :=
  ⟨fun _ => hk, fun _ hst => Option.some.inj hst ▸ hf⟩

theorem Prog.StopsAtFailure.regWrite (hk : k.StopsAtFailure) : (regWrite a v k).StopsAtFailure := .regWriteElse rfl hk

theorem Prog.StopsAtFailure.regReadElse {f : Prog} (hf : f.EndsWith .regReadFailed) (hk : ∀ b, (kb b).StopsAtFailure) :
    (regReadElse f a kb).StopsAtFailure :=
  ⟨fun _ => hk _, fun _ hst => Option.some.inj hst ▸ hf⟩

theorem Prog.StopsAtFailure.regRead (hk : ∀ b, (kb b).StopsAtFailure) : (regRead a kb).StopsAtFailure := .regReadElse rfl hk

theorem Prog.StopsAtFailure.rmw {mask : Byte} (hk : k.StopsAtFailure) : (rmw a mask v k).StopsAtFailure :=
  .regRead fun _ => .regWrite hk

theorem Prog.StopsAtFailure.busInit (hk : k.StopsAtFailure) : (busInit k).StopsAtFailure :=
  ⟨fun _ => hk, fun _ hst => Option.some.inj hst⟩

theorem Prog.StopsAtFailure.delay {ms : Nat} (hk : k.StopsAtFailure) : (delay ms k).StopsAtFailure :=
  ⟨fun _ => hk, fun _ hst => nomatch hst⟩

theorem Prog.StopsAtFailure.setMode {c : Config} {m : Mode} (hk : k.StopsAtFailure) : (setMode c m k).StopsAtFailure :=
  .regWrite (hk.update _)

theorem Prog.StopsAtFailure.burstRead {n next : Nat} (hk : k.StopsAtFailure) : (burstRead a n next k).StopsAtFailure :=
  .ite (hk.update _) ⟨fun _ => hk, fun _ hst => Option.some.inj hst⟩

end

/-! ## The commands stop at a failure -/

theorem progInitTail_stopsAtFailure (c : Config) : (progInitTail c).StopsAtFailure :=
  .update (.setMode <| .regWrite <| .regWrite <| .rmw <| .regWrite <| .setMode <| stopsAtFailure_respond .ok 0) _

theorem progPollVersion_stopsAtFailure (c : Config) (n : Nat) : (progPollVersion c n).StopsAtFailure := by
  induction n with
  | zero => exact stopsAtFailure_respond _ _
  | succ n ih => exact .update (.update (.regRead fun _ => .ite (progInitTail_stopsAtFailure c) (.delay ih)) _) _

theorem progDumpFrom_stopsAtFailure (c : Config) (i n : Nat) : (progDumpFrom c i n).StopsAtFailure := by
  induction n generalizing i with
  | zero => exact stopsAtFailure_respond _ _
  | succ n ih => exact .regReadElse rfl fun _ => (ih (i + 1)).update _

theorem progReceivePacket_stopsAtFailure (c : Config) (cap : BitVec 32) : (progReceivePacket c cap).StopsAtFailure :=
  .regRead fun _ => .regWrite <| .ite (stopsAtFailure_respond _ _) <| .ite (stopsAtFailure_respond _ _) <| .ask fun _ =>
    .regRead fun _ => .setMode <| .regRead fun _ => .regWrite <| .burstRead <| stopsAtFailure_respond _ _

/-- Every command but `SEND_PACKET`, which cleans up after a failed poll (R184), stops at a failure. -/
theorem program_stopsAtFailure (c : Config) {i : Instr} (hi : ∀ n, i ≠ .sendPacket n) : (program c i).StopsAtFailure := by
  have hend := stopsAtFailure_respond
  have hset : (Prog.respond .ok 0).StopsAtFailure := hend .ok 0
  unfold program
  cases i with
  | sendPacket len => exact absurd rfl (hi len)
  | driverInit => exact .busInit (progPollVersion_stopsAtFailure c _)
  | close | modeSleep | modeStandby | modeReceive | modeTransmit => exact .setMode hset
  | setFrequency hz => exact .update (.regWrite (.regWrite (.regWrite hset))) _
  | setSpreadingFactor sf => exact .ite (.regWrite (.regWrite (.rmw hset))) (.regWrite (.regWrite (.rmw hset)))
  | setBandwidth _ | setCodingRate _ | setCrc _ => exact .rmw hset
  | setPreambleLength n => exact .regWrite (.regWrite hset)
  | setSyncWord _ | setTxPower _ => exact .regWrite hset
  | setDioMapping pin mode => exact .ite (hend _ _) (.rmw hset)
  | getFrequency => exact .regRead fun _ => .regRead fun _ => .regRead fun _ => hend _ _
  | getBandwidth => exact .regRead fun _ => .ite (hend _ _) (hend _ _)
  | getPreambleLength => exact .regRead fun _ => .regRead fun _ => hend _ _
  | getSpreadingFactor | getCodingRate | getSyncWord | getCrc | getTxPower | getIrqFlags | packetSnr =>
    exact .regRead fun _ => hend _ _
  | getDioMapping pin => exact .ite (hend _ _) (.regRead fun _ => hend _ _)
  | setExplicitHeader => exact .rmw (hset.update _)
  | setImplicitHeader size => exact .rmw (.regWrite ((hset.update _).update _))
  | receivePacket cap => exact progReceivePacket_stopsAtFailure c cap
  | pollReceived => exact .regRead fun _ => .ite (.regWriteElse rfl (hend _ _)) (hend _ _)
  | packetLostCount => exact .ask fun _ => hend _ _
  | packetRssi => exact .regRead fun _ => .ask fun _ => hend _ _
  | dumpRegisters => exact progDumpFrom_stopsAtFailure c 0 c.dumpCount

/-- Settles O27: every command but `SEND_PACKET` runs a pseudocode that stops at a failure. -/
theorem failedTransactionEndsCommand : Obligations.FailedTransactionEndsCommand := by
  intro i s t r pre post e hi he hr hes hfail
  rw [exec_eq_run] at he
  cases he
  obtain ⟨r', hr', hlast⟩ := (program_stopsAtFailure s.config hi).run s
  obtain rfl : r' = r := by simpa [hr'] using hr
  exact hlast pre e post hes hfail

end Sys2Proof.Machine
end

section
/-! PROOFS. The configuration commands as sequences of register accesses (40_config R130 to R149): what each issues and answers, all
accesses answered `ok`, and at each failing one. -/

namespace Sys2Proof.Machine

/-! ## Accesses in order, their answers known -/

theorem exec_of_program {i : Instr} {s t : State} {p : Prog} (hp : program s.config i = p) (h : p.run s = t) : exec i s = .next t := by
  rw [exec_eq_run, hp, h]

section
variable {a : Addr} {v b : Byte} {k : Prog} {kb : Byte → Prog} {s : State} {ops : List Op} {st : Status} {d : Word}

theorem respond_completes : (Prog.respond st d).run s = s.completed [] st d := s.deliver_eq_completed st d

theorem regWrite_completes (h : s.env.reply (.write a v) = .ok [])
    (hk : k.run (s.transact (.write a v)) = (s.transact (.write a v)).completed ops st d) :
    (regWrite a v k).run s = s.completed (.write a v :: ops) st d := by
  rw [regWrite, regWriteElse_ok h, hk, State.completed_transact]

theorem regWrite_fails (h : s.env.reply (.write a v) = .fail) :
    (regWrite a v k).run s = s.completed [.write a v] .regWriteFailed 0 := by
  rw [regWrite, regWriteElse_fail h, raise_run, State.deliver_eq_completed, State.completed_transact]

theorem regRead_completes (h : s.env.reply (.read a) = .ok [b])
    (hk : (kb b).run (s.transact (.read a)) = (s.transact (.read a)).completed ops st d) :
    (regRead a kb).run s = s.completed (.read a :: ops) st d := by
  rw [regRead, regReadElse_ok h, hk, State.completed_transact]

theorem regRead_fails (h : s.env.reply (.read a) = .fail) :
    (regRead a kb).run s = s.completed [.read a] .regReadFailed 0 := by
  rw [regRead, regReadElse_fail h, raise_run, State.deliver_eq_completed, State.completed_transact]

end

/-! ## Commands that are writes only -/

/-- Single writes in order, then `OK`. -/
def regWrites (ws : List (Addr × Byte)) : Prog := ws.foldr (fun w k => regWrite w.1 w.2 k) (.respond .ok 0)

/-- The operations of these writes. -/
def writeOps (ws : List (Addr × Byte)) : List Op := ws.map fun w => .write w.1 w.2

theorem regWrites_completes {ws : List (Addr × Byte)} {s : State}
    (h : s.env.replies (writeOps ws) = (writeOps ws).map fun _ => .ok []) :
    (regWrites ws).run s = s.completed (writeOps ws) .ok 0 := by
  induction ws generalizing s with
  | nil => exact respond_completes
  | cons w ws ih =>
    obtain ⟨hw, hws⟩ := List.cons.inj h
    exact regWrite_completes hw (ih hws)

theorem regWrites_fails {ws : List (Addr × Byte)} {s : State} {k : Nat} (hk : k < (writeOps ws).length)
    (h : s.env.replies ((writeOps ws).take (k + 1)) = List.replicate k (.ok []) ++ [.fail]) :
    (regWrites ws).run s = s.completed ((writeOps ws).take (k + 1)) .regWriteFailed 0 := by
  induction ws generalizing s k with
  | nil => exact absurd hk (Nat.not_lt_zero k)
  | cons w ws ih =>
    cases k with
    | zero => exact regWrite_fails (List.cons.inj h).1
    | succ k =>
      obtain ⟨hw, hws⟩ := List.cons.inj h
      exact regWrite_completes hw (ih (Nat.lt_of_succ_lt_succ hk) hws)

/-- A command whose pseudocode comes to writes only, from a state with the same environment. -/
theorem writesInOrder_of_run {i : Instr} {s s0 : State} {ws : List (Addr × Byte)}
    (hrun : (program s.config i).run s = (regWrites ws).run s0) (henv : s0.env = s.env) : WritesInOrder i s s0 (writeOps ws) := by
  rw [WritesInOrder, ← henv]
  exact ⟨fun h => exec_of_program rfl (hrun.trans (regWrites_completes h)),
    fun k hk h => exec_of_program rfl (hrun.trans (regWrites_fails hk h))⟩

theorem frfMsb_eq {n : Nat} (v : BitVec n) : frfMsb v = BitVec.ofNat 8 (v.toNat / 65536) := by
  rw [frfMsb, BitVec.extractLsb', Nat.shiftRight_eq_div_pow]

theorem frfMid_eq {n : Nat} (v : BitVec n) : frfMid v = BitVec.ofNat 8 (v.toNat / 256) := by
  rw [frfMid, BitVec.extractLsb', Nat.shiftRight_eq_div_pow]

theorem frfLsb_eq {n : Nat} (v : BitVec n) : frfLsb v = BitVec.ofNat 8 v.toNat := rfl

theorem frf_toNat (c : Config) (f : BitVec 32) :
    (frf c f).toNat = (f.toNat * 2 ^ c.frfNumShift + c.fxoscHz / 2) / c.fxoscHz % 2 ^ c.frfBits := BitVec.toNat_ofNat _ _

/-- Settles O29: the frequency is stored first (D15), and the rest is three writes. -/
theorem setFrequencyWritesTriplet : Obligations.SetFrequencyWritesTriplet := by
  intro f s
  rw [← frf_toNat, ← frfMsb_eq, ← frfMid_eq, ← frfLsb_eq]
  exact writesInOrder_of_run (s0 := s.apply (.setFrequency f))
    (ws := [(s.config.addrFrfMsb, frfMsb (frf s.config f)), (s.config.addrFrfMid, frfMid (frf s.config f)),
      (s.config.addrFrfLsb, frfLsb (frf s.config f))]) rfl rfl

theorem high8_eq (n : BitVec 16) : high8 n = BitVec.ofNat 8 (n.toNat / 256) := by
  rw [high8, BitVec.extractLsb', Nat.shiftRight_eq_div_pow]

theorem lower8_eq (n : BitVec 16) : lower8 n = BitVec.ofNat 8 n.toNat := rfl

/-- Settles O31: each of the three is writes only. -/
theorem wholeRegisterSetters : Obligations.WholeRegisterSetters := by
  intro s hwf
  refine ⟨fun n => ?_, fun w => ?_, fun v => ?_⟩
  · rw [← high8_eq, ← lower8_eq]
    exact writesInOrder_of_run (ws := [(s.config.addrPreambleMsb, high8 n), (s.config.addrPreambleLsb, lower8 n)]) rfl rfl
  · exact writesInOrder_of_run (ws := [(s.config.addrSyncWord, w)]) rfl rfl
  · rw [← clampTo_eq (Params.of hwf).pwr]
    exact writesInOrder_of_run (ws := [(s.config.addrPaConfig, paConfigByte s.config (clampPwr s.config v))]) rfl rfl

/-! ## Commands with a read-modify-write -/

/-- A command whose pseudocode is one read-modify-write. -/
theorem readsModifiesWrites_of_program {i : Instr} {s : State} {a : Addr} {mask val : Byte}
    (hp : program s.config i = rmw a mask val (.respond .ok 0)) : ReadsModifiesWrites i s a mask val := by
  refine ⟨fun old h => exec_of_program hp ?_, fun h => exec_of_program hp ?_, fun old h => exec_of_program hp ?_⟩
  · obtain ⟨hread, hwrite⟩ : _ ∧ _ := by simpa [rmwOps] using h
    exact regRead_completes hread (regWrite_completes hwrite respond_completes)
  · exact regRead_fails (List.cons.inj h).1
  · obtain ⟨hread, hwrite⟩ : _ ∧ _ := by simpa [rmwOps] using h
    exact regRead_completes hread (regWrite_fails hwrite)

/-- Settles O33: each is one read-modify-write, and the clamp is on a range that is not empty (R7). -/
theorem sharedRegisterSettersReadModifyWrite : Obligations.SharedRegisterSettersReadModifyWrite := by
  intro v s hwf
  rw [← clampTo_eq (Params.of hwf).bw, ← clampTo_eq (Params.of hwf).cr]
  exact ⟨readsModifiesWrites_of_program rfl, readsModifiesWrites_of_program rfl⟩

theorem progSetDioMapping_of_lt {c : Config} {pin : Byte} (h : pin.toNat < c.dioPinCount) (mode : Int) :
    progSetDioMapping c pin mode =
      rmw (dioAddr c pin) (placed 0x03 (dioShiftOf c pin)) (placed (clampDioMode c mode) (dioShiftOf c pin)) (.respond .ok 0) :=
  if_neg (Nat.not_le.mpr h)

theorem progGetDioMapping_of_lt {c : Config} {pin : Byte} (h : pin.toNat < c.dioPinCount) :
    progGetDioMapping c pin =
      regRead (dioAddr c pin) fun v => .respond .ok (BitVec.ofNat 32 ((v.toNat >>> dioShiftOf c pin) &&& 0x03)) :=
  if_neg (Nat.not_le.mpr h)

/-- Settles O34: for a valid pin both are one read-modify-write. -/
theorem crcAndDioSettersReadModifyWrite : Obligations.CrcAndDioSettersReadModifyWrite := by
  intro s _
  refine ⟨fun e => readsModifiesWrites_of_program rfl, fun pin v hpin => ?_⟩
  have hmode : (max (0 : Int) (min v s.config.dioModeMax)).toNat = clampDioMode s.config v :=
    (clampTo_eq (Nat.zero_le _) v).symm
  rw [hmode]
  exact readsModifiesWrites_of_program (progSetDioMapping_of_lt hpin v)

/-- Settles O36: the pin is checked before any transaction (D14). -/
theorem invalidDioPinFails : Obligations.InvalidDioPinFails := by
  intro s pin v hpin
  have hset : progSetDioMapping s.config pin v = raise .failure := if_pos hpin
  have hget : progGetDioMapping s.config pin = raise .failure := if_pos hpin
  exact ⟨exec_of_program hset respond_completes, exec_of_program hget respond_completes⟩

/-- R132, D11: the least factor has detection constants of its own, and the accesses are the same for every factor. -/
theorem progSetSpreadingFactor_eq (c : Config) (v : Int) :
    progSetSpreadingFactor c v =
      (regWrite c.addrDetectOptimize (if clampSf c v = c.sfMin then c.detectOptSf6 else c.detectOptNormal) <|
        regWrite c.addrDetectThreshold (if clampSf c v = c.sfMin then c.detectThrSf6 else c.detectThrNormal) <|
        rmw c.addrModemConfig2 c.mc2SfMask (placed (clampSf c v) c.mc2SfShift) (.respond .ok 0)) := by
  by_cases h : clampSf c v = c.sfMin <;> simp only [progSetSpreadingFactor, h, if_true, if_false]

/-- Settles O32: two writes and a read-modify-write, answered `ok` up to the first that fails. -/
theorem setSpreadingFactorSequence : Obligations.SetSpreadingFactorSequence := by
  intro v s sf opt thr old hwf hsf hopt hthr ops hops
  have hp : program s.config (.setSpreadingFactor v) =
      regWrite s.config.addrDetectOptimize opt (regWrite s.config.addrDetectThreshold thr
        (rmw s.config.addrModemConfig2 s.config.mc2SfMask (placed sf s.config.mc2SfShift) (.respond .ok 0))) := by
    rw [hopt, hthr, hsf, ← clampTo_eq (Params.of hwf).sf]
    exact progSetSpreadingFactor_eq s.config v
  subst hops
  refine ⟨fun h => exec_of_program hp ?_, fun h => exec_of_program hp ?_, fun h => exec_of_program hp ?_,
    fun h => exec_of_program hp ?_, fun h => exec_of_program hp ?_⟩
  · obtain ⟨hopt, hthr, hread, hwrite⟩ : _ ∧ _ ∧ _ ∧ _ := by simpa [rmwOps] using h
    exact regWrite_completes hopt (regWrite_completes hthr (regRead_completes hread (regWrite_completes hwrite respond_completes)))
  · exact regWrite_fails (List.cons.inj h).1
  · obtain ⟨hopt, hthr⟩ : _ ∧ _ := by simpa [rmwOps] using h
    exact regWrite_completes hopt (regWrite_fails hthr)
  · obtain ⟨hopt, hthr, hread⟩ : _ ∧ _ ∧ _ := by simpa [rmwOps] using h
    exact regWrite_completes hopt (regWrite_completes hthr (regRead_fails hread))
  · obtain ⟨hopt, hthr, hread, hwrite⟩ : _ ∧ _ ∧ _ ∧ _ := by simpa [rmwOps] using h
    exact regWrite_completes hopt (regWrite_completes hthr (regRead_completes hread (regWrite_fails hwrite)))

/-! ## Commands that read only -/

/-- A command whose pseudocode is one read and its answer. -/
theorem readsOne_of_program {i : Instr} {s : State} {a : Addr} {result : Byte → Word}
    (hp : program s.config i = regRead a fun v => .respond .ok (result v)) : ReadsOne i s a result := by
  exact ⟨fun v h => exec_of_program hp (regRead_completes (List.cons.inj h).1 respond_completes),
    fun h => exec_of_program hp (regRead_fails (List.cons.inj h).1)⟩

theorem field_eq_div (v mask : Byte) (shift : Nat) : field v mask shift = (v &&& mask).toNat / 2 ^ shift :=
  Nat.shiftRight_eq_div_pow _ _

theorem crcEnabledData_eq (c : Config) (v : Byte) : crcEnabledData c v = if v &&& c.mc2CrcOn = 0 then 0 else 1 := by
  by_cases h : v &&& c.mc2CrcOn = 0 <;> simp [crcEnabledData, flagSet, h]

/-- The two-bit field of a DIO pin. -/
theorem dioField_eq_mod (v : Byte) (shift : Nat) : (v.toNat >>> shift) &&& 0x03 = v.toNat / 2 ^ shift % 4 := by
  rw [Nat.shiftRight_eq_div_pow]
  exact Nat.and_two_pow_sub_one_eq_mod _ 2

/-- Settles O37: each is one read, and its answer is the field of the byte read. -/
theorem fieldGettersExtract : Obligations.FieldGettersExtract := by
  intro s
  simp only [← field_eq_div, ← crcEnabledData_eq, ← dioField_eq_mod, BitVec.ofNat_toNat]
  exact ⟨readsOne_of_program rfl, readsOne_of_program rfl, readsOne_of_program rfl, readsOne_of_program rfl,
    readsOne_of_program rfl, fun pin hpin => readsOne_of_program (progGetDioMapping_of_lt hpin), readsOne_of_program rfl⟩

/-- Settles O38: the field is compared with `BW_MAX` after a read answered `ok` (R135, C1). -/
theorem getBandwidthChecksRange : Obligations.GetBandwidthChecksRange := by
  intro s
  have hexec {t : State} : (progGetBandwidth s.config).run s = t → exec .getBandwidth s = .next t :=
    exec_of_program rfl
  refine ⟨fun v h => hexec ?_, fun h => hexec (regRead_fails (List.cons.inj h).1)⟩
  have hread : s.env.reply (.read s.config.addrModemConfig1) = .ok [v] := (List.cons.inj h).1
  rw [← field_eq_div]
  split
  · next hle =>
    refine regRead_completes hread ?_
    rw [if_neg (Nat.not_lt.mpr hle)]
    exact respond_completes
  · next hgt =>
    refine regRead_completes hread ?_
    rw [if_pos (Nat.lt_of_not_le hgt)]
    exact respond_completes

/-- A byte joined to a word, the word the more significant. -/
theorem toNat_append_byte {n : Nat} (x : BitVec n) (y : Byte) : (x ++ y).toNat = x.toNat * 256 + y.toNat := by
  rw [BitVec.toNat_append, ← Nat.shiftLeft_add_eq_or_of_lt y.isLt, Nat.shiftLeft_eq, show 2 ^ dataBits = 256 from rfl]

theorem joinPreamble_eq (m l : Byte) : joinPreamble m l = BitVec.ofNat 32 (m.toNat * 256 + l.toNat) := by
  rw [joinPreamble, ← BitVec.ofNat_toNat, toNat_append_byte]

theorem joinFrf_eq (m i l : Byte) : joinFrf m i l = BitVec.ofNat 32 (m.toNat * 65536 + i.toNat * 256 + l.toNat) := by
  rw [joinFrf, ← BitVec.ofNat_toNat, toNat_append_byte, toNat_append_byte]
  rw [show (m.toNat * 256 + i.toNat) * 256 = m.toNat * 65536 + i.toNat * 256 by omega]

/-- Settles O39: reads in order, answered `ok` up to the first that fails. -/
theorem multiByteGettersJoin : Obligations.MultiByteGettersJoin := by
  intro s
  have hfrf {t : State} : (progGetFrequency s.config).run s = t → exec .getFrequency s = .next t :=
    exec_of_program rfl
  have hpre {t : State} : (progGetPreambleLength s.config).run s = t → exec .getPreambleLength s = .next t :=
    exec_of_program rfl
  simp only [Env.replies_cons, Env.replies_nil, List.cons.injEq, and_true]
  refine ⟨?_, ?_, ?_, ?_, ?_, ?_, ?_⟩
  · rintro m i l ⟨hm, hi, hl⟩
    rw [← joinFrf_eq]
    exact hfrf (regRead_completes hm (regRead_completes hi (regRead_completes hl respond_completes)))
  · exact fun hm => hfrf (regRead_fails hm)
  · rintro m ⟨hm, hi⟩
    exact hfrf (regRead_completes hm (regRead_fails hi))
  · rintro m i ⟨hm, hi, hl⟩
    exact hfrf (regRead_completes hm (regRead_completes hi (regRead_fails hl)))
  · rintro m l ⟨hm, hl⟩
    rw [← joinPreamble_eq]
    exact hpre (regRead_completes hm (regRead_completes hl respond_completes))
  · exact fun hm => hpre (regRead_fails hm)
  · rintro m ⟨hm, hl⟩
    exact hpre (regRead_completes hm (regRead_fails hl))

/-! ## The frequency bytes joined again -/

/-- R34, R131: the three bytes of a 24-bit register value, joined, are the value. -/
theorem joinFrf_bytes (v : BitVec 24) : (joinFrf (frfMsb v) (frfMid v) (frfLsb v)).toNat = v.toNat := by
  have hv : v.toNat < 2 ^ 24 := v.isLt
  simp only [joinFrf_eq, frfMsb_eq, frfMid_eq, frfLsb_eq, BitVec.toNat_ofNat, dataBits]
  omega

/-- Settles O30: the bytes of a 24-bit value give it back, and the value is within 24 bits up to that frequency. -/
theorem frequencyBytesReconstruct : Obligations.FrequencyBytesReconstruct := by
  intro f
  refine ⟨?_, by omega⟩
  calc (joinFrf (frfMsb (frf Config.default f)) (frfMid (frf Config.default f)) (frfLsb (frf Config.default f))).toNat
      = (frf Config.default f).toNat := joinFrf_bytes _
    _ = (f.toNat * 2 ^ 19 + 16000000) / 32000000 % 2 ^ 24 := frf_toNat _ f

end Sys2Proof.Machine
end

section
/-! PROOFS. A getter after its setter on a plain chip (20_memory R78; 40_config R132 to R137, R144 to R147; log 12): what a pseudocode does
with a plain chip, and the fields that come back from a register. -/

namespace Sys2Proof.Machine

/-! ## A command on a plain chip -/

/-- What a command's pseudocode does with a plain chip: the chip after it, and the response; `tx` is `txbuf`, `p` the pending status. -/
def Prog.onChip (c : Config) (tx : Memory) : Prog → Chip → Radio → Status → Chip × Response
  | .respond st d, x, _, _ => (x, { status := st, data := d })
  | .respondPending, x, _, p => (x, { status := p, data := 0 })
  | .issue op k, x, r, p =>
    (k (.ok (Chip.serve c x (op.onPort tx)).1)).onChip c tx (Chip.serve c x (op.onPort tx)).2 r p
  | .update u q, x, r, p => q.onChip c tx x (u.onRadio r) (u.onSeq { Seq.idle with pending := p }).pending
  | .ask k, x, r, p => (k r).onChip c tx x r p

/-- A chip that follows an entry gave its answer. -/
theorem Chip.follow_cons {c : Config} {x y : Chip} {e : Entry} {es : List Entry} (h : Chip.follow c x (e :: es) = some y) :
    e.answer = .ok (Chip.serve c x e.txn).1 ∧ Chip.follow c (Chip.serve c x e.txn).2 es = some y := by
  rw [Chip.follow] at h
  split at h
  · next ha => exact ⟨ha, h⟩
  · cases h

theorem Chip.follow_append (c : Config) (x : Chip) (es fs : List Entry) :
    Chip.follow c x (es ++ fs) = (Chip.follow c x es).bind fun y => Chip.follow c y fs := by
  induction es generalizing x with
  | nil => rfl
  | cons e es ih =>
    rw [List.cons_append, Chip.follow, Chip.follow]
    split
    · exact ih _
    · rfl

/-- A run whose transactions a plain chip answered leaves the chip and the response of the pseudocode on that chip. -/
theorem Prog.run_onChip {c : Config} (p : Prog) {s : State} {x y : Chip}
    (h : Chip.follow c x (newEntries s (p.run s)) = some y) :
    (p.onChip c s.txbuf x s.radio s.seq.pending).1 = y ∧
      (p.run s).responses = s.responses ++ [(p.onChip c s.txbuf x s.radio s.seq.pending).2] := by
  induction p generalizing s x with
  | respond st d | respondPending =>
    rw [newEntries_of_trace (es := []) (by simp [Prog.run])] at h
    exact ⟨Option.some.inj h, rfl⟩
  | issue op k ih =>
    rw [Prog.run, newEntries_run_transact] at h
    obtain ⟨hreply, hrest⟩ := Chip.follow_cons h
    rw [Prog.run, Prog.onChip, ← hreply]
    exact ih (s.reply op) hrest
  | update u p ih =>
    rw [Prog.onChip, ← Upd.onSeq_pending]
    exact ih (s := s.apply u) h
  | ask k ih => exact ih s.radio h

theorem regWrite_onChip (a : Addr) (v : Byte) (k : Prog) (c : Config) (tx : Memory) (x : Chip) (r : Radio) (p : Status) :
    (regWrite a v k).onChip c tx x r p = k.onChip c tx (Chip.storeByte c x a v) r p := rfl

theorem regRead_onChip (a : Addr) (k : Byte → Prog) (c : Config) (tx : Memory) (x : Chip) (r : Radio) (p : Status) :
    (regRead a k).onChip c tx x r p = (k (Chip.loadByte c x a)).onChip c tx (Chip.afterLoad c x a) r p := rfl

/-- Two runs, one after the other: the new entries are those of the first and those of the second. -/
theorem newEntries_run_run (p q : Prog) (s : State) :
    newEntries s (q.run (p.run s)) = newEntries s (p.run s) ++ newEntries (p.run s) (q.run (p.run s)) := by
  obtain ⟨-, ⟨es, hes⟩, -⟩ := Prog.run_frame p s
  obtain ⟨-, ⟨fs, hfs⟩, -⟩ := Prog.run_frame q (p.run s)
  rw [newEntries_of_trace hes, newEntries_of_trace hfs]
  exact newEntries_of_trace (by rw [hfs, hes, List.append_assoc])

/-! ## Registers of a plain chip -/

/-- A register that only stores what is written to it: neither the FIFO (R83) nor the interrupt flags (R84). -/
structure PlainRegister (c : Config) (a : Addr) : Prop where
  notFifo : a ≠ c.addrFifo
  notIrqFlags : a ≠ c.addrIrqFlags

/-- Every named register is plain but the two, which stand at places 0 and 11 of the table. -/
theorem Params.plainRegister {c : Config} (h : Params c) {i : Nat} (hi : i < c.namedAddresses.length) (hfifo : i ≠ 0)
    (hirq : i ≠ 11) : PlainRegister c c.namedAddresses[i] :=
  ⟨h.ne hi (Nat.zero_lt_of_lt hi) hfifo, h.ne hi (show 11 < 27 by decide) hirq⟩

theorem Params.plainRegister_dioAddr {c : Config} (h : Params c) (pin : Byte) : PlainRegister c (dioAddr c pin) := by
  unfold dioAddr
  split
  · exact h.plainRegister (i := 24) (show 24 < 27 by decide) (by decide) (by decide)
  · exact h.plainRegister (i := 25) (show 25 < 27 by decide) (by decide) (by decide)

theorem Chip.afterLoad_of_plain {c : Config} {a : Addr} (ha : PlainRegister c a) (x : Chip) : Chip.afterLoad c x a = x :=
  if_neg ha.notFifo

theorem Chip.loadByte_storeByte {c : Config} {a : Addr} (ha : PlainRegister c a) {x : Chip} (hx : Memory.wf x.regs = true) (v : Byte) :
    Chip.loadByte c (Chip.storeByte c x a v) a = v := by
  rw [Chip.loadByte, if_neg ha.notFifo, Chip.storeByte, if_neg ha.notFifo, if_neg ha.notIrqFlags]
  exact Memory.read_write_same hx

theorem Chip.storeByte_wf {c : Config} {x : Chip} (hx : Memory.wf x.regs = true) (a : Addr) (v : Byte) :
    Memory.wf (Chip.storeByte c x a v).regs = true := by
  unfold Chip.storeByte
  split
  · exact Memory.write_wf hx
  · split <;> exact Memory.write_wf hx

/-- The pseudocode answers `OK` on this chip and leaves in the register `a` a byte that meets `P`. -/
def Prog.Stores (p : Prog) (c : Config) (x : Chip) (a : Addr) (P : Byte → Prop) : Prop :=
  ∀ tx r pending,
    P (Chip.loadByte c (p.onChip c tx x r pending).1 a) ∧ (p.onChip c tx x r pending).2 = { status := .ok, data := 0 }

section
variable {c : Config} {a : Addr} {x : Chip} {P : Byte → Prop}

theorem regWrite_stores (ha : PlainRegister c a) (hx : Memory.wf x.regs = true) {v : Byte} (hv : P v) :
    (regWrite a v (.respond .ok 0)).Stores c x a P := by
  intro tx r pending
  rw [regWrite_onChip]
  exact ⟨(Chip.loadByte_storeByte ha hx v).symm ▸ hv, rfl⟩

theorem regRead_stores (ha : PlainRegister c a) {k : Byte → Prog} (hk : ∀ b, (k b).Stores c x a P) : (regRead a k).Stores c x a P := by
  intro tx r pending
  rw [regRead_onChip, Chip.afterLoad_of_plain ha]
  exact hk _ tx r pending

theorem rmw_stores (ha : PlainRegister c a) (hx : Memory.wf x.regs = true) {mask val : Byte} (hv : ∀ old, P (rmwByte old mask val)) :
    (rmw a mask val (.respond .ok 0)).Stores c x a P :=
  regRead_stores ha fun old => regWrite_stores ha hx (hv old)

/-- A write before it. -/
theorem Prog.Stores.after_regWrite {k : Prog} {a' : Addr} {v : Byte} (hk : k.Stores c (Chip.storeByte c x a' v) a P) :
    (regWrite a' v k).Stores c x a P := by
  intro tx r pending
  rw [regWrite_onChip]
  exact hk tx r pending

/-- The pseudocode answers `OK` with the data `d` on this chip. -/
def Prog.Answers (p : Prog) (c : Config) (x : Chip) (d : Word) : Prop :=
  ∀ tx r pending, (p.onChip c tx x r pending).2 = { status := .ok, data := d }

theorem regRead_answers {k : Byte → Prog} {d : Word} (hk : k (Chip.loadByte c x a) = .respond .ok d) : (regRead a k).Answers c x d := by
  intro tx r pending
  rw [regRead_onChip, hk]
  rfl

end

/-- A setter that leaves in the register `a` a byte that meets `P`, then a getter that answers `d` where `a` holds such a byte. -/
theorem responses_of_set_get {set get : Instr} {s t u : State} {x : Chip} {a : Addr} {P : Byte → Prop} {d : Word}
    (ht : exec set s = .next t) (hu : exec get t = .next u) (hfollow : (Chip.follow s.config x (newEntries s u)).isSome = true)
    (hset : (program s.config set).Stores s.config x a P)
    (hget : ∀ y, P (Chip.loadByte s.config y a) → (program s.config get).Answers s.config y d) :
    u.responses = s.responses ++ [{ status := .ok, data := 0 }, { status := .ok, data := d }] := by
  rw [exec_eq_run] at ht hu
  cases ht
  cases hu
  obtain ⟨-, -, -, hconfig, -⟩ := Prog.run_frame (program s.config set) s
  rw [hconfig] at hfollow ⊢
  obtain ⟨z, hz⟩ := Option.isSome_iff_exists.mp hfollow
  rw [newEntries_run_run, Chip.follow_append, Option.bind_eq_some_iff] at hz
  obtain ⟨y, hy, hz⟩ := hz
  obtain ⟨hchip, hresp⟩ := Prog.run_onChip _ hy
  obtain ⟨-, hresp'⟩ := Prog.run_onChip _ hz
  obtain ⟨hload, hok⟩ := hset s.txbuf s.radio s.seq.pending
  rw [hchip] at hload
  rw [hresp', hresp, hok, hget y hload, List.append_assoc]
  rfl

/-! ## Fields that come back -/

/-- Under the mask a read-modify-write leaves the value written (R10). -/
theorem rmwByte_and_mask (old mask val : Byte) : rmwByte old mask val &&& mask = val &&& mask := by
  refine BitVec.eq_of_getLsbD_eq fun k _ => ?_
  rw [BitVec.getLsbD_and, BitVec.getLsbD_and, rmwByte_getLsbD]
  cases mask.getLsbD k <;> simp

/-- A value that fits its window comes back from it. -/
theorem field_rmwByte {mask : Byte} {k shift : Nat} (hk : k <<< shift < 256) (hmask : placed k shift &&& mask = placed k shift)
    (old : Byte) : field (rmwByte old mask (placed k shift)) mask shift = k := by
  rw [field, rmwByte_and_mask, hmask, placed_field hk]

/-- R7: a value of a window's range comes back from it. -/
theorem field_rmwByte_of_fitsWindow {mask : Byte} {shift lo n k : Nat} (h : Config.fitsWindow mask shift lo n = true) (hlo : lo ≤ k)
    (hhi : k < lo + n) (old : Byte) : field (rmwByte old mask (placed k shift)) mask shift = k :=
  have ⟨hlt, hmask⟩ := fitsWindow_placed h hlo hhi
  field_rmwByte hlt hmask old

theorem placed_toNat {k shift : Nat} (h : k <<< shift < 256) : (placed k shift).toNat = k <<< shift :=
  (BitVec.toNat_ofNat _ _).trans (Nat.mod_eq_of_lt h)

/-- A two-bit value fits the byte at every shift of a DIO pin. -/
theorem shiftLeft_lt_of_le {k shift : Nat} (hk : k ≤ 3) (hs : shift ≤ 6) : k <<< shift < 256 := by
  rw [Nat.shiftLeft_eq]
  calc k * 2 ^ shift ≤ 3 * 2 ^ 6 := Nat.mul_le_mul hk (Nat.pow_le_pow_right (by decide) hs)
    _ < 256 := by decide

/-- The two bits read at a shift are the field of the two-bit window there. -/
theorem field_dioWindow (v : Byte) {shift : Nat} (hs : shift ≤ 6) : field v (placed 0x03 shift) shift = (v.toNat >>> shift) &&& 0x03 := by
  rw [field, BitVec.toNat_and, placed_toNat (shiftLeft_lt_of_le (le_refl 3) hs), Nat.shiftRight_and_distrib, Nat.shiftLeft_shiftRight]

/-- A two-bit value lies inside the window of every DIO pin. -/
theorem placed_and_dioWindow {k shift : Nat} (hk : k ≤ 3) (hs : shift ≤ 6) :
    placed k shift &&& placed 0x03 shift = placed k shift := by
  have hand : k &&& 3 = k := (Nat.and_two_pow_sub_one_eq_mod k 2).trans (Nat.mod_eq_of_lt (Nat.lt_succ_of_le hk))
  refine BitVec.eq_of_toNat_eq ?_
  rw [BitVec.toNat_and, placed_toNat (shiftLeft_lt_of_le hk hs), placed_toNat (shiftLeft_lt_of_le (le_refl 3) hs),
    ← Nat.shiftLeft_and_distrib, hand]

section
variable {c : Config} (h : Params c) (v : Int) (old : Byte)
include h

theorem Params.field_sf : field (rmwByte old c.mc2SfMask (placed (clampSf c v) c.mc2SfShift)) c.mc2SfMask c.mc2SfShift = clampSf c v := by
  obtain ⟨hlo, hhi⟩ := clampTo_bounds h.sf v
  exact field_rmwByte_of_fitsWindow h.sfWindow hlo (show clampTo v _ _ < _ by omega) old

theorem Params.field_bw : field (rmwByte old c.mc1BwMask (placed (clampBw c v) c.mc1BwShift)) c.mc1BwMask c.mc1BwShift = clampBw c v := by
  obtain ⟨hlo, hhi⟩ := clampTo_bounds h.bw v
  exact field_rmwByte_of_fitsWindow h.bwWindow hlo (show clampTo v _ _ < _ by omega) old

theorem Params.field_cr :
    field (rmwByte old c.mc1CrMask (placed (clampCr c v - c.crBias) c.mc1CrShift)) c.mc1CrMask c.mc1CrShift + c.crBias = clampCr c v := by
  obtain ⟨hlo, hhi⟩ := clampTo_bounds h.cr v
  have hbias := h.crBias
  have hlo' : c.crMin - c.crBias ≤ clampCr c v - c.crBias := Nat.sub_le_sub_right hlo _
  rw [field_rmwByte_of_fitsWindow h.crWindow hlo' (show clampTo v _ _ - _ < _ by omega)]
  exact Nat.sub_add_cancel (hbias.trans hlo)

/-- The boost bit lies outside the power field (R7). -/
theorem Params.field_pwr : (paConfigByte c (clampPwr c v) &&& c.pwrFieldMask).toNat + c.pwrBias = clampPwr c v := by
  obtain ⟨hlo, hhi⟩ := clampTo_bounds h.pwr v
  have hbias := h.pwrBias
  obtain ⟨hlt, hmask⟩ := fitsWindow_placed h.pwrWindow (k := clampPwr c v - c.pwrBias) (Nat.sub_le_sub_right hlo _)
    (show clampTo v _ _ - _ < _ by omega)
  have hboost : c.paBoost &&& c.pwrFieldMask = 0 := by simpa [Config.disjoint] using h.power
  have hbyte : paConfigByte c (clampPwr c v) &&& c.pwrFieldMask = placed (clampPwr c v - c.pwrBias) 0 := by
    calc (c.paBoost ||| placed (clampPwr c v - c.pwrBias) 0) &&& c.pwrFieldMask
        = c.paBoost &&& c.pwrFieldMask ||| placed (clampPwr c v - c.pwrBias) 0 &&& c.pwrFieldMask := BitVec.and_or_distrib_right
      _ = placed (clampPwr c v - c.pwrBias) 0 := by rw [hboost, hmask]; exact BitVec.zero_or
  rw [hbyte]
  exact (congrArg (· + c.pwrBias) (placed_field hlt)).trans (Nat.sub_add_cancel (hbias.trans hlo))

theorem Params.dioShiftOf_le {pin : Byte} (hpin : pin.toNat < c.dioPinCount) : dioShiftOf c pin ≤ 6 := by
  rw [dioShiftOf, List.getD_eq_getElem _ _ (h.dioLength ▸ hpin)]
  exact h.dioShifts _ (List.getElem_mem _)

theorem Params.field_dio {pin : Byte} (hpin : pin.toNat < c.dioPinCount) :
    ((rmwByte old (placed 0x03 (dioShiftOf c pin)) (placed (clampDioMode c v) (dioShiftOf c pin))).toNat >>> dioShiftOf c pin) &&& 0x03
      = clampDioMode c v := by
  have hshift := h.dioShiftOf_le hpin
  have hmode : clampDioMode c v ≤ 3 := (clampTo_bounds (Nat.zero_le _) v).2.trans h.dioMode
  rw [← field_dioWindow _ hshift, field_rmwByte (shiftLeft_lt_of_le hmode hshift) (placed_and_dioWindow hmode hshift)]

end

/-! ## The five pairs -/

section
variable {c : Config} {x : Chip} (h : Params c) (hx : Memory.wf x.regs = true) (v : Int)
include h

theorem Params.plainRegister_modemConfig1 : PlainRegister c c.addrModemConfig1 :=
  h.plainRegister (i := 15) (show 15 < 27 by decide) (by decide) (by decide)

theorem Params.plainRegister_modemConfig2 : PlainRegister c c.addrModemConfig2 :=
  h.plainRegister (i := 16) (show 16 < 27 by decide) (by decide) (by decide)

theorem Params.plainRegister_paConfig : PlainRegister c c.addrPaConfig :=
  h.plainRegister (i := 5) (show 5 < 27 by decide) (by decide) (by decide)

include hx

theorem progSetSpreadingFactor_stores :
    (progSetSpreadingFactor c v).Stores c x c.addrModemConfig2 fun b => field b c.mc2SfMask c.mc2SfShift = clampSf c v := by
  rw [progSetSpreadingFactor_eq]
  exact .after_regWrite <| .after_regWrite <|
    rmw_stores h.plainRegister_modemConfig2 (Chip.storeByte_wf (Chip.storeByte_wf hx _ _) _ _) (h.field_sf v)

theorem progSetBandwidth_stores :
    (progSetBandwidth c v).Stores c x c.addrModemConfig1 fun b => field b c.mc1BwMask c.mc1BwShift = clampBw c v :=
  rmw_stores h.plainRegister_modemConfig1 hx (h.field_bw v)

theorem progSetCodingRate_stores :
    (progSetCodingRate c v).Stores c x c.addrModemConfig1 fun b => field b c.mc1CrMask c.mc1CrShift + c.crBias = clampCr c v :=
  rmw_stores h.plainRegister_modemConfig1 hx (h.field_cr v)

theorem progSetTxPower_stores :
    (progSetTxPower c v).Stores c x c.addrPaConfig fun b => (b &&& c.pwrFieldMask).toNat + c.pwrBias = clampPwr c v :=
  regWrite_stores h.plainRegister_paConfig hx (h.field_pwr v)

theorem progSetDioMapping_stores {pin : Byte} (hpin : pin.toNat < c.dioPinCount) :
    (progSetDioMapping c pin v).Stores c x (dioAddr c pin) fun b => (b.toNat >>> dioShiftOf c pin) &&& 0x03 = clampDioMode c v := by
  rw [progSetDioMapping_of_lt hpin]
  exact rmw_stores (h.plainRegister_dioAddr pin) hx fun old => h.field_dio v old hpin

end

section
variable {c : Config} {n : Nat} (x : Chip)

theorem progGetSpreadingFactor_answers (hn : field (Chip.loadByte c x c.addrModemConfig2) c.mc2SfMask c.mc2SfShift = n) :
    (progGetSpreadingFactor c).Answers c x (BitVec.ofNat 32 n) :=
  hn ▸ regRead_answers rfl

/-- R135: a field of at most `BW_MAX` is answered. -/
theorem progGetBandwidth_answers (hn : field (Chip.loadByte c x c.addrModemConfig1) c.mc1BwMask c.mc1BwShift = n) (hle : n ≤ c.bwMax) :
    (progGetBandwidth c).Answers c x (BitVec.ofNat 32 n) := by
  subst hn
  exact regRead_answers (if_neg (Nat.not_lt.mpr hle))

theorem progGetCodingRate_answers (hn : field (Chip.loadByte c x c.addrModemConfig1) c.mc1CrMask c.mc1CrShift + c.crBias = n) :
    (progGetCodingRate c).Answers c x (BitVec.ofNat 32 n) :=
  hn ▸ regRead_answers rfl

theorem progGetTxPower_answers (hn : (Chip.loadByte c x c.addrPaConfig &&& c.pwrFieldMask).toNat + c.pwrBias = n) :
    (progGetTxPower c).Answers c x (BitVec.ofNat 32 n) :=
  hn ▸ regRead_answers rfl

theorem progGetDioMapping_answers {pin : Byte} (hpin : pin.toNat < c.dioPinCount)
    (hn : ((Chip.loadByte c x (dioAddr c pin)).toNat >>> dioShiftOf c pin) &&& 0x03 = n) :
    (progGetDioMapping c pin).Answers c x (BitVec.ofNat 32 n) := by
  rw [progGetDioMapping_of_lt hpin]
  exact hn ▸ regRead_answers rfl

end

/-- Settles O40: each setter leaves in its register a byte whose field is the clamped value, and its getter answers that field. -/
theorem clampedSettersRoundTripOnPlainChip : Obligations.ClampedSettersRoundTripOnPlainChip := by
  intro v pin s t u x set get lo hi hwf hx hpin hmem ht hu hfollow
  have h := Params.of hwf
  simp only [List.mem_cons, List.not_mem_nil, or_false, Prod.mk.injEq] at hmem
  rcases hmem with ⟨rfl, rfl, rfl, rfl⟩ | ⟨rfl, rfl, rfl, rfl⟩ | ⟨rfl, rfl, rfl, rfl⟩ | ⟨rfl, rfl, rfl, rfl⟩ | ⟨rfl, rfl, rfl, rfl⟩
  · rw [← clampTo_eq h.sf]
    exact responses_of_set_get ht hu hfollow (progSetSpreadingFactor_stores h hx v) progGetSpreadingFactor_answers
  · rw [← clampTo_eq h.bw]
    exact responses_of_set_get ht hu hfollow (progSetBandwidth_stores h hx v) fun y hy =>
      progGetBandwidth_answers y hy (clampTo_bounds h.bw v).2
  · rw [← clampTo_eq h.cr]
    exact responses_of_set_get ht hu hfollow (progSetCodingRate_stores h hx v) progGetCodingRate_answers
  · rw [← clampTo_eq h.pwr]
    exact responses_of_set_get ht hu hfollow (progSetTxPower_stores h hx v) progGetTxPower_answers
  · rw [← clampTo_eq (Nat.zero_le _)]
    exact responses_of_set_get ht hu hfollow (progSetDioMapping_stores h hx v hpin) fun y => progGetDioMapping_answers y hpin

end Sys2Proof.Machine
end

section
/-! PROOFS. The mode and header-mode commands as sequences of register accesses (41_mode R170 to R176; 45_init_close R214). -/

namespace Sys2Proof.Machine

/-! ## Mode commands -/

/-- A command whose pseudocode is a bare mode write (R171 to R174). -/
theorem writesMode_of_program {i : Instr} {s : State} {m : Mode} (hp : program s.config i = progMode s.config m) :
    WritesMode i s m (modeByte s.config m) := by
  refine ⟨fun h => exec_of_program hp ?_, fun h => exec_of_program hp ?_⟩
  · have hwrite := (List.cons.inj h).1
    rw [progMode, setMode, setModeElse, regWriteElse_ok hwrite, run_update, run_respond, State.setMode_eq, State.withMode_transact]
    exact State.issueAll_deliver (s.withMode m) [.write s.config.addrOpMode (modeByte s.config m)] .ok 0
  · exact regWrite_fails (List.cons.inj h).1

/-- Settles O41: each of the three is a bare mode write. -/
theorem sleepStandbyReceiveWriteMode : Obligations.SleepStandbyReceiveWriteMode :=
  fun _ => ⟨writesMode_of_program rfl, writesMode_of_program rfl, writesMode_of_program rfl⟩

/-- Settles O42: `MODE_TRANSMIT` is a bare mode write, and `CLOSE` is the same as `MODE_SLEEP`. -/
theorem transmitAndCloseWriteMode : Obligations.TransmitAndCloseWriteMode :=
  fun _ => ⟨writesMode_of_program rfl, writesMode_of_program rfl⟩

/-! ## Header-mode commands -/

theorem rmwByte_clear (old mask : Byte) : rmwByte old mask 0x00 = old &&& ~~~mask := by
  simp [rmwByte]

theorem rmwByte_set (old mask : Byte) : rmwByte old mask mask = old ||| mask := by
  refine BitVec.eq_of_getLsbD_eq fun k _ => ?_
  rw [rmwByte_getLsbD, BitVec.getLsbD_or]
  cases mask.getLsbD k <;> simp

section
variable {a : Addr} {old mask val : Byte} {k : Prog} {s : State}

/-- A read-modify-write both of whose accesses succeed goes on (R10). -/
theorem rmw_ok (h : s.env.replies (rmwOps a old mask val) = [.ok [old], .ok []]) :
    (rmw a mask val k).run s = k.run (s.issueAll (rmwOps a old mask val)) := by
  obtain ⟨hread, hwrite⟩ : _ ∧ _ := by simpa [rmwOps] using h
  rw [rmw, regRead, regReadElse_ok hread, regWrite, regWriteElse_ok hwrite]
  rfl

/-- A read-modify-write whose read fails ends the command, without a write (R148). -/
theorem rmw_read_fails (h : s.env.replies [.read a] = [.fail]) :
    (rmw a mask val k).run s = s.completed [.read a] .regReadFailed 0 := regRead_fails (List.cons.inj h).1

/-- A read-modify-write whose write fails ends the command (R148). -/
theorem rmw_write_fails (h : s.env.replies (rmwOps a old mask val) = [.ok [old], .fail]) :
    (rmw a mask val k).run s = s.completed (rmwOps a old mask val) .regWriteFailed 0 := by
  obtain ⟨hread, hwrite⟩ : _ ∧ _ := by simpa [rmwOps] using h
  exact regRead_completes hread (regWrite_fails hwrite)

end

/-- The answers to a list of operations and one more: those to the list, and the one given after it. -/
theorem reply_issueAll {s : State} {ops : List Op} {op : Op} {as : List Answer} {ans : Answer} (hl : as.length = ops.length)
    (h : s.env.replies (ops ++ [op]) = as ++ [ans]) : s.env.replies ops = as ∧ (s.issueAll ops).env.reply op = ans := by
  obtain ⟨hops, hop⟩ := Env.replies_split hl h
  rw [State.issueAll_env]
  exact ⟨hops, (List.cons.inj hop).1⟩

/-- Settles O43: a read-modify-write of the header bit to 0, then the update of `st.header_mode`. -/
theorem setExplicitHeaderClearsBit : Obligations.SetExplicitHeaderClearsBit := by
  rintro s old ops rfl
  rw [← rmwByte_clear]
  refine ⟨fun h => exec_of_program rfl ?_, fun h => exec_of_program rfl (rmw_read_fails h),
    fun h => exec_of_program rfl (rmw_write_fails h)⟩
  exact (rmw_ok h).trans (State.issueAll_deliver (s.apply (.setHeader .explicit)) (rmwOps _ old _ 0x00) .ok 0)

/-- Settles O44: a read-modify-write of the header bit to 1, a write of the length, then the two updates of RadioState. -/
theorem setImplicitHeaderSetsBitAndLength : Obligations.SetImplicitHeaderSetsBitAndLength := by
  rintro s size old ops rfl
  rw [← rmwByte_set]
  refine ⟨fun h => exec_of_program rfl ?_, fun h => exec_of_program rfl (rmw_read_fails h),
    fun h => exec_of_program rfl (rmw_write_fails h), fun h => exec_of_program rfl ?_⟩
  · obtain ⟨hbit, hlength⟩ := reply_issueAll (ops := rmwOps _ old _ _) (as := [.ok [old], .ok []]) rfl h
    refine (rmw_ok hbit).trans ((regWriteElse_ok hlength).trans ?_)
    exact State.issueAll_deliver ((s.apply (.setHeader .implicit)).apply (.setPayloadSize size))
      (rmwOps _ old _ _ ++ [.write s.config.addrPayloadLength size]) .ok 0
  · obtain ⟨hbit, hlength⟩ := reply_issueAll (ops := rmwOps _ old _ _) (as := [.ok [old], .ok []]) rfl h
    exact (rmw_ok hbit).trans <| (regWrite_fails hlength).trans <| State.completed_issueAll _ _ _ _ _

end Sys2Proof.Machine
end

section
/-! PROOFS. The declared mode is the mode of the last successful `SetMode` in the trace (41_mode R170, R178; 92_eei_decisions D16). -/

namespace Sys2Proof.Machine

/-! ## The mode read from a trace -/

/-- The register `OP_MODE` is told from the other registers, and the modes are told apart in it. -/
structure OpModeLegible (c : Config) : Prop where
  apart : ∀ a ∈ c.namedAddresses.eraseIdx 1, a ≠ c.addrOpMode
  bytes : Function.Injective (modeByte c)

/-- `OP_MODE` stands at place 1 of the table, and the addresses of the table differ (R7). -/
theorem Params.opModeLegible {c : Config} (h : Params c) (hbytes : Function.Injective (modeByte c)) : OpModeLegible c where
  apart a ha := by
    obtain ⟨i, hi, hne, rfl⟩ := List.mem_eraseIdx_iff_getElem.mp ha
    exact h.ne hi (show 1 < 27 by decide) hne
  bytes := hbytes

theorem dioAddr_mem_eraseIdx (c : Config) (pin : Byte) : dioAddr c pin ∈ c.namedAddresses.eraseIdx 1 := by
  unfold dioAddr
  split <;> simp [Config.namedAddresses]

section
variable {c : Config} {m : Mode} {es : List Entry} {e : Entry}

theorem modeOfByte_modeByte (hbytes : Function.Injective (modeByte c)) (m : Mode) : modeOfByte c (modeByte c m) = some m := by
  cases m <;> simp [modeOfByte, hbytes.eq_iff]

theorem modeAfter_append_singleton : modeAfter c m (es ++ [e]) = modeAfterEntry c (modeAfter c m es) e := by
  simp [modeAfter]

theorem modeAfterEntry_write_ne {a : Addr} (ha : a ≠ c.addrOpMode) (v : Byte) (ans : Answer) :
    modeAfterEntry c m { txn := .write a v, answer := ans } = m := by
  cases ans with
  | ok d => exact if_neg ha
  | fail => rfl

/-- A successful `SetMode` declares its mode (R170). -/
theorem modeAfterEntry_setMode (hbytes : Function.Injective (modeByte c)) (m' : Mode) (d : List Byte) :
    modeAfterEntry c m { txn := .write c.addrOpMode (modeByte c m'), answer := .ok d } = m' := by
  simp [modeAfterEntry, modeOfByte_modeByte hbytes]

end

/-! ## Pseudocode that keeps the declared mode with the trace -/

/-- The declared mode is the one the transactions `es` give, from the mode `m` before them. -/
def DeclaresModeOf (c : Config) (m : Mode) (es : List Entry) (r : Radio) : Prop := r.operatingMode = modeAfter c m es

theorem DeclaresModeOf.append {c : Config} {m : Mode} {es : List Entry} {r : Radio} (h : DeclaresModeOf c m es r) {e : Entry}
    (he : modeAfterEntry c (modeAfter c m es) e = modeAfter c m es) : DeclaresModeOf c m (es ++ [e]) r :=
  h.trans (modeAfter_append_singleton.trans he).symm

/-- Where the declared mode is that of the trace, it is so again when the pseudocode has ended, whatever the environment answers. -/
def Prog.TracksMode (c : Config) (p : Prog) : Prop :=
  OpModeLegible c → ∀ m tx es r pending, DeclaresModeOf c m es r → p.wp tx (fun es' r' _ => DeclaresModeOf c m es' r') es r pending

section
variable {c : Config} {f k : Prog} {kb : Byte → Prog} {a : Addr} {v : Byte}

theorem tracksMode_respond (st : Status) (d : Word) : (Prog.respond st d).TracksMode c := fun _ _ _ _ _ _ hm => hm

theorem tracksMode_respondPending : Prog.respondPending.TracksMode c := fun _ _ _ _ _ _ hm => hm

/-- An update that is no part of a `SetMode` leaves the declared mode as it is. -/
theorem Prog.TracksMode.update (hk : k.TracksMode c) {u : Upd} (hu : ∀ r, (u.onRadio r).operatingMode = r.operatingMode) :
    (Prog.update u k).TracksMode c :=
  fun hc _ _ _ r _ hm => hk hc _ _ _ _ _ ((hu r).trans hm)

theorem Prog.TracksMode.ask {kr : Radio → Prog} (hk : ∀ r, (kr r).TracksMode c) : (Prog.ask kr).TracksMode c :=
  fun hc _ _ _ r _ hm => hk r hc _ _ _ _ _ hm

theorem Prog.TracksMode.ite {P : Prop} [Decidable P] (hf : f.TracksMode c) (hk : k.TracksMode c) :
    (if P then f else k).TracksMode c := by
  split
  · exact hf
  · exact hk

theorem Prog.TracksMode.regWriteElse (hf : f.TracksMode c) (hk : k.TracksMode c)
    (ha : a ∈ c.namedAddresses.eraseIdx 1 := by simp [Config.namedAddresses]) : (regWriteElse f a v k).TracksMode c :=
  fun hc _ _ _ _ _ hm =>
    have hquiet := modeAfterEntry_write_ne (hc.apart a ha) v
    regWriteElse_wp (hk hc _ _ _ _ _ (hm.append (hquiet _))) (hf hc _ _ _ _ _ (hm.append (hquiet _)))

theorem Prog.TracksMode.regWrite (hk : k.TracksMode c)
    (ha : a ∈ c.namedAddresses.eraseIdx 1 := by simp [Config.namedAddresses]) : (regWrite a v k).TracksMode c :=
  .regWriteElse (tracksMode_respond _ _) hk ha

theorem Prog.TracksMode.regReadElse (hf : f.TracksMode c) (hk : ∀ b, (kb b).TracksMode c) : (regReadElse f a kb).TracksMode c :=
  fun hc _ _ _ _ _ hm => regReadElse_wp (fun b => hk b hc _ _ _ _ _ (hm.append rfl)) (hf hc _ _ _ _ _ (hm.append rfl))

theorem Prog.TracksMode.regRead (hk : ∀ b, (kb b).TracksMode c) : (regRead a kb).TracksMode c :=
  .regReadElse (tracksMode_respond _ _) hk

theorem Prog.TracksMode.rmw {mask : Byte} (hk : k.TracksMode c)
    (ha : a ∈ c.namedAddresses.eraseIdx 1 := by simp [Config.namedAddresses]) : (rmw a mask v k).TracksMode c :=
  .regRead fun _ => .regWrite hk ha

theorem Prog.TracksMode.busInit (hk : k.TracksMode c) : (busInit k).TracksMode c :=
  fun hc _ _ _ _ _ hm => busInit_wp (hk hc _ _ _ _ _ (hm.append rfl)) (hm.append rfl)

theorem Prog.TracksMode.delay {ms : Nat} (hk : k.TracksMode c) : (delay ms k).TracksMode c :=
  fun hc _ _ _ _ _ hm => delay_wp (hk hc _ _ _ _ _ (hm.append rfl))

theorem Prog.TracksMode.burstWriteElse {n next : Nat} (hf : f.TracksMode c) (hk : k.TracksMode c) :
    (burstWriteElse f a n next k).TracksMode c :=
  fun hc _ _ _ _ _ hm => burstWriteElse_wp (fun _ => hk hc _ _ _ _ _ hm) (fun _ => hk hc _ _ _ _ _ (hm.append rfl))
    fun _ => hf hc _ _ _ _ _ (hm.append rfl)

theorem Prog.TracksMode.burstRead {n next : Nat} (hk : k.TracksMode c) : (burstRead a n next k).TracksMode c :=
  fun hc _ _ _ _ _ hm => burstRead_wp (fun _ => hk hc _ _ _ _ _ hm) (fun _ _ _ => hk hc _ _ _ _ _ (hm.append rfl))
    fun _ => hm.append rfl

theorem Prog.TracksMode.cleanupWrite (hk : k.TracksMode c)
    (ha : a ∈ c.namedAddresses.eraseIdx 1 := by simp [Config.namedAddresses]) : (cleanupWrite a v id k).TracksMode c :=
  fun hc _ _ _ _ _ hm =>
    have hquiet := modeAfterEntry_write_ne (hc.apart a ha) v
    cleanupWrite_wp (hk hc _ _ _ _ _ (hm.append (hquiet _))) (hk hc _ _ _ _ _ (hm.append (hquiet _)))

/-- After a successful mode write the update declares what the trace now says. -/
theorem Prog.TracksMode.declare (hk : k.TracksMode c) (hc : OpModeLegible c) (m m' : Mode) (tx : Memory) (es : List Entry) (r : Radio)
    (pending : Status) :
    (Prog.update (.setMode m') k).wp tx (fun es' r' _ => DeclaresModeOf c m es' r')
      (es ++ [{ txn := .write c.addrOpMode (modeByte c m'), answer := .ok [] }]) r pending :=
  hk hc _ _ _ _ _ (modeAfter_append_singleton.trans (modeAfterEntry_setMode hc.bytes m' [])).symm

/-- `SetMode` changes the declared mode and the mode of the trace together, or neither (R170). -/
theorem Prog.TracksMode.setModeElse {m : Mode} (hf : f.TracksMode c) (hk : k.TracksMode c) : (setModeElse f c m k).TracksMode c :=
  fun hc _ _ _ _ _ hm => regWriteElse_wp (hk.declare hc _ _ _ _ _ _) (hf hc _ _ _ _ _ (hm.append rfl))

theorem Prog.TracksMode.setMode {m : Mode} (hk : k.TracksMode c) : (setMode c m k).TracksMode c :=
  .setModeElse (tracksMode_respond _ _) hk

/-- The mode write of the cleanup (R184) is a `SetMode` too. -/
theorem Prog.TracksMode.cleanupSetMode {m : Mode} (hk : k.TracksMode c) :
    (Machine.cleanupWrite c.addrOpMode (modeByte c m) (.update (.setMode m)) k).TracksMode c :=
  fun hc _ _ _ _ _ hm => cleanupWrite_wp (hk.declare hc _ _ _ _ _ _) (hk hc _ _ _ _ _ (hm.append rfl))

end

/-! ## The commands keep the declared mode with the trace -/

section
variable (c : Config)

theorem progInitTail_tracksMode : (progInitTail c).TracksMode c :=
  .update (.setMode <| .regWrite <| .regWrite <| .rmw <| .regWrite <| .setMode <| tracksMode_respond .ok 0) fun _ => rfl

theorem progPollVersion_tracksMode (n : Nat) : (progPollVersion c n).TracksMode c := by
  induction n with
  | zero => exact tracksMode_respond _ _
  | succ n ih =>
    exact .update (.update (.regRead fun _ => .ite (progInitTail_tracksMode c) (.delay ih)) fun _ => rfl) fun _ => rfl

theorem progDumpFrom_tracksMode (i n : Nat) : (progDumpFrom c i n).TracksMode c := by
  induction n generalizing i with
  | zero => exact tracksMode_respond _ _
  | succ n ih => exact .regReadElse (tracksMode_respond _ _) fun _ => (ih (i + 1)).update fun _ => rfl

theorem progCleanup_tracksMode : (progCleanup c).TracksMode c :=
  .update (.cleanupSetMode <| .cleanupWrite tracksMode_respondPending) fun _ => rfl

theorem progPollTxDone_tracksMode (n : Nat) : (progPollTxDone c n).TracksMode c := by
  have hcleanup := progCleanup_tracksMode c
  induction n with
  | zero => exact hcleanup.update fun _ => rfl
  | succ n ih =>
    refine .update (.update (.regReadElse (hcleanup.update fun _ => rfl) fun _ => ?_) fun _ => rfl) fun _ => rfl
    exact .ite (hcleanup.update fun _ => rfl) (.delay ih)

theorem progSendPacket_tracksMode (len : Byte) : (progSendPacket c len).TracksMode c :=
  have habort : (raise .failure).TracksMode c := tracksMode_respond _ _
  .setModeElse habort <| .regWriteElse habort <| .burstWriteElse habort <| .regWriteElse habort <|
    .setModeElse habort <| .update (progPollTxDone_tracksMode c c.pollCap) fun _ => rfl

theorem progReceivePacket_tracksMode (cap : BitVec 32) : (progReceivePacket c cap).TracksMode c :=
  .regRead fun _ => .regWrite <| .ite (tracksMode_respond _ _) <| .ite (tracksMode_respond _ _) <| .ask fun _ =>
    .regRead fun _ => .setMode <| .regRead fun _ => .regWrite <| .burstRead <| tracksMode_respond _ _

/-- Every command keeps the declared mode with its trace. -/
theorem program_tracksMode (i : Instr) : (program c i).TracksMode c := by
  have hend := tracksMode_respond (c := c)
  have hset : (Prog.respond .ok 0).TracksMode c := hend .ok 0
  have hdio := dioAddr_mem_eraseIdx c
  unfold program
  cases i with
  | sendPacket len => exact progSendPacket_tracksMode c len
  | receivePacket cap => exact progReceivePacket_tracksMode c cap
  | driverInit => exact .busInit (progPollVersion_tracksMode c _)
  | close | modeSleep | modeStandby | modeReceive | modeTransmit => exact .setMode hset
  | setFrequency hz => exact .update (.regWrite (.regWrite (.regWrite hset))) fun _ => rfl
  | setSpreadingFactor sf => exact .ite (.regWrite (.regWrite (.rmw hset))) (.regWrite (.regWrite (.rmw hset)))
  | setBandwidth _ | setCodingRate _ | setCrc _ => exact .rmw hset
  | setPreambleLength n => exact .regWrite (.regWrite hset)
  | setSyncWord _ | setTxPower _ => exact .regWrite hset
  | setDioMapping pin mode => exact .ite (hend _ _) (.rmw hset (hdio pin))
  | getFrequency => exact .regRead fun _ => .regRead fun _ => .regRead fun _ => hend _ _
  | getBandwidth => exact .regRead fun _ => .ite (hend _ _) (hend _ _)
  | getPreambleLength => exact .regRead fun _ => .regRead fun _ => hend _ _
  | getSpreadingFactor | getCodingRate | getSyncWord | getCrc | getTxPower | getIrqFlags | packetSnr =>
    exact .regRead fun _ => hend _ _
  | getDioMapping pin => exact .ite (hend _ _) (.regRead fun _ => hend _ _)
  | setExplicitHeader => exact .rmw (hset.update fun _ => rfl)
  | setImplicitHeader size => exact .rmw (.regWrite ((hset.update fun _ => rfl).update fun _ => rfl))
  | pollReceived => exact .regRead fun _ => .ite (.regWriteElse (hend _ _) (hend _ _)) (hend _ _)
  | packetLostCount => exact .ask fun _ => hend _ _
  | packetRssi => exact .regRead fun _ => .ask fun _ => hend _ _
  | dumpRegisters => exact progDumpFrom_tracksMode c 0 c.dumpCount

end

/-- Settles O22: before the first transaction the declared mode is that of the empty trace, and every command keeps it with the trace. -/
theorem declaredModeFollowsTrace : Obligations.DeclaredModeFollowsTrace := by
  intro i s t hwf hbytes he
  have hc := (Params.of hwf).opModeLegible hbytes
  obtain ⟨-, -, -, hmode⟩ := exec_wp he (program_tracksMode s.config i hc s.radio.operatingMode s.txbuf [] s.radio s.seq.pending rfl)
  exact hmode

end Sys2Proof.Machine
end

section
/-! PROOFS. `SEND_PACKET` as a sequence of transactions (42_packet_tx R180 to R184): arming, the exits of the poll loop, cleanup. -/

namespace Sys2Proof.Machine

/-! ## The sequencer's own fields -/

/-- Of the sequencer only `pending` is read by a command's pseudocode, so where a run ends depends on nothing else of it. -/
theorem Prog.run_withSeq (p : Prog) {s : State} {q : Seq} (h : q.pending = s.seq.pending) : p.run { s with seq := q } = p.run s := by
  induction p generalizing s q with
  | respond st d => rfl
  | respondPending => rw [Prog.run, Prog.run, h]; rfl
  | issue op k ih =>
    exact ih (s.reply op) (s := s.transact op) (q := { q with step := q.step + 1, answers := q.answers ++ [s.reply op] }) h
  | update u p ih =>
    refine ih (s := s.apply u) (q := u.onSeq q) ?_
    rw [Upd.onSeq_pending u q, h, ← Upd.onSeq_pending]
    rfl
  | ask k ih => exact ih s.radio h

theorem State.setPending_issueAll (s : State) (ops : List Op) (st : Status) :
    (s.issueAll ops).apply (.setPending st) = (s.apply (.setPending st)).issueAll ops := by
  induction ops generalizing s with
  | nil => rfl
  | cons op ops ih => exact ih _

theorem State.issueAll_pending (s : State) (ops : List Op) : (s.issueAll ops).seq.pending = s.seq.pending := by
  induction ops generalizing s with
  | nil => rfl
  | cons op ops ih => exact ih _

theorem State.issueAll_radio (s : State) (ops : List Op) : (s.issueAll ops).radio = s.radio := by
  induction ops generalizing s with
  | nil => rfl
  | cons op ops ih => exact ih _

/-! ## Operations each of which is checked (R180, R181) -/

/-- Operations in order, each answer examined before the next is issued; the first failure ends the command with `FAILURE`. -/
def checkedOps (ops : List Op) (k : Prog) : Prog :=
  ops.foldr (fun op rest => .issue op fun r =>
    match r with
    | .ok _ => rest
    | .fail => raise .failure) k

section
variable {ops : List Op} {k : Prog} {s : State}

theorem checkedOps_append (xs ys : List Op) : checkedOps (xs ++ ys) k = checkedOps xs (checkedOps ys k) := List.foldr_append

theorem checkedOps_cons_ok {op : Op} (h : s.env.reply op = .ok []) :
    (checkedOps (op :: ops) k).run s = (checkedOps ops k).run (s.transact op) := by
  simp [checkedOps, Prog.run, State.reply, h]

theorem checkedOps_cons_fail {op : Op} (h : s.env.reply op = .fail) :
    (checkedOps (op :: ops) k).run s = s.completed [op] .failure 0 := by
  rw [← State.completed_transact, ← State.deliver_eq_completed]
  simp [checkedOps, Prog.run, State.reply, h, raise]

theorem checkedOps_ok (h : s.env.replies ops = allOk ops) : (checkedOps ops k).run s = k.run (s.issueAll ops) := by
  induction ops generalizing s with
  | nil => rfl
  | cons op ops ih =>
    obtain ⟨hop, hops⟩ := List.cons.inj h
    rw [checkedOps_cons_ok hop]
    exact ih hops

theorem checkedOps_fails {n : Nat} (hn : n < ops.length)
    (h : s.env.replies (ops.take (n + 1)) = List.replicate n (.ok []) ++ [.fail]) :
    (checkedOps ops k).run s = s.completed (ops.take (n + 1)) .failure 0 := by
  induction ops generalizing s n with
  | nil => exact absurd hn (Nat.not_lt_zero n)
  | cons op ops ih =>
    cases n with
    | zero => exact checkedOps_cons_fail (List.cons.inj h).1
    | succ n =>
      obtain ⟨hop, hops⟩ := List.cons.inj h
      rw [checkedOps_cons_ok hop, ih (Nat.lt_of_succ_lt_succ hn) hops, State.completed_transact]
      rfl

end

/-! ## The arming phase (R180, R181) -/

section
variable {c : Config} {len : Byte} {s : State}

/-- What follows the last write of the arming, once it has answered `ok`. -/
def progArmed (c : Config) : Prog := .update (.setMode .transmit) <| .update (.setPending .sendTimeout) <| progPollTxDone c c.pollCap

/-- The payload of step 3 is one checked operation, or none where it is empty (R75). -/
theorem burstWriteElse_eq_checkedOps (a : Addr) (next : Nat) (k : Prog) (s : State) :
    (burstWriteElse (raise .failure) a len.toNat next k).run s =
      (checkedOps (if len = 0 then [] else [.burstWrite a len.toNat]) k).run s := by
  by_cases hlen : len = 0
  · subst hlen
    exact k.run_withSeq (q := { s.seq with step := next }) rfl
  · have hn : len.toNat ≠ 0 := fun e => hlen (BitVec.eq_of_toNat_eq e)
    rw [burstWriteElse, if_neg hn, if_neg hlen]
    rfl

theorem armOps_eq_cons (c : Config) (len : Byte) :
    armOps c len = .write c.addrOpMode (modeByte c .standby) :: .write c.addrFifoAddrPtr 0x00 ::
      ((if len = 0 then [] else [.burstWrite c.addrFifo len.toNat]) ++
        [.write c.addrPayloadLength len, .write c.addrOpMode (modeByte c .transmit)]) := rfl

/-- Step 1 answered `ok`, the arming is its checked operations, run in the declared mode `Standby`. -/
theorem progSendPacket_of_standby (h : s.env.reply (.write c.addrOpMode (modeByte c .standby)) = .ok []) :
    (progSendPacket c len).run s = (checkedOps (armOps c len) (progArmed c)).run (s.withMode .standby) := by
  rw [progSendPacket, setModeElse, regWriteElse_ok h, run_update, State.setMode_eq, State.withMode_transact, armOps_eq_cons,
    checkedOps_cons_ok (s := s.withMode .standby) h]
  rcases State.reply_write _ c.addrFifoAddrPtr 0x00 with hptr | hptr
  · rw [regWriteElse_fail hptr, checkedOps_cons_fail hptr]
    rfl
  · rw [regWriteElse_ok hptr, checkedOps_cons_ok hptr, burstWriteElse_eq_checkedOps, checkedOps_append]
    rfl

theorem progSendPacket_standby_fails (h : s.env.reply (.write c.addrOpMode (modeByte c .standby)) = .fail) :
    (progSendPacket c len).run s = s.completed [.write c.addrOpMode (modeByte c .standby)] .failure 0 := by
  rw [progSendPacket, setModeElse, regWriteElse_fail h, raise_run, State.deliver_eq_completed, State.completed_transact]

/-- The updates of an arming that succeeds (R180, R182). -/
def State.armed (s : State) : State := (s.withMode .transmit).apply (.setPending .sendTimeout)

/-- All steps of the arming answered `ok`: the poll loop begins in the declared mode `Transmit`, `SEND_TIMEOUT` pending (R180, R182). -/
theorem progSendPacket_armed (h : s.env.replies (armOps c len) = allOk (armOps c len)) :
    (progSendPacket c len).run s = (progPollTxDone c c.pollCap).run (s.armed.issueAll (armOps c len)) := by
  rw [progSendPacket_of_standby (List.cons.inj h).1, checkedOps_ok (s := s.withMode .standby) h, progArmed, run_update, run_update,
    State.setMode_eq, State.withMode_issueAll, State.setPending_issueAll]
  rfl

end

/-! ## The cleanup (R184) -/

section
variable {c : Config} {s : State}

theorem cleanupWrite_ok {a : Addr} {v : Byte} {onOk : Prog → Prog} {k : Prog} {d : List Byte} (h : s.env.reply (.write a v) = .ok d) :
    (cleanupWrite a v onOk k).run s = (onOk k).run (s.transact (.write a v)) := by
  simp [cleanupWrite, Prog.run, State.reply, h]

theorem cleanupWrite_fail {a : Addr} {v : Byte} {onOk : Prog → Prog} {k : Prog} (h : s.env.reply (.write a v) = .fail) :
    (cleanupWrite a v onOk k).run s = k.run ((s.transact (.write a v)).apply .cleanupFailed) := by
  simp [cleanupWrite, Prog.run, State.reply, h]

/-- R184: the pending status after a cleanup write's answer. -/
def afterCleanupWrite (pending : Status) (a : Answer) : Status := if pending = .ok ∧ a = .fail then .regWriteFailed else pending

theorem afterCleanupWrite_ok (pending : Status) (d : List Byte) : afterCleanupWrite pending (.ok d) = pending := if_neg nofun

theorem afterCleanupWrite_fail (pending : Status) :
    afterCleanupWrite pending .fail = if pending = .ok then .regWriteFailed else pending := by
  simp [afterCleanupWrite]

theorem afterCleanupWrite_of_ne_ok {pending : Status} (h : pending ≠ .ok) (a : Answer) : afterCleanupWrite pending a = pending :=
  if_neg fun hc => h hc.1

theorem afterCleanupWrite_twice_of_ne_ok {pending : Status} (h : pending ≠ .ok) (a6 a7 : Answer) :
    afterCleanupWrite (afterCleanupWrite pending a6) a7 = pending := by
  rw [afterCleanupWrite_of_ne_ok h, afterCleanupWrite_of_ne_ok h]

/-- With `OK` pending the final status is `OK` unless a cleanup write failed (R184). -/
theorem afterCleanupWrite_twice_ok (a6 a7 : Answer) :
    afterCleanupWrite (afterCleanupWrite .ok a6) a7 = if a6 = .fail ∨ a7 = .fail then .regWriteFailed else .ok := by
  cases a6 with
  | ok d => simp [afterCleanupWrite]
  | fail => simp [afterCleanupWrite]

/-- The last cleanup write, and the response. -/
theorem cleanupWrite_respondPending (a : Addr) (v : Byte) (s : State) :
    (cleanupWrite a v id .respondPending).run s =
      s.completed [.write a v] (afterCleanupWrite s.seq.pending (s.env.reply (.write a v))) 0 := by
  rw [← State.completed_transact, ← State.deliver_eq_completed]
  cases h : s.env.reply (.write a v) with
  | ok d => rw [cleanupWrite_ok h, afterCleanupWrite_ok]; rfl
  | fail => rw [cleanupWrite_fail h, afterCleanupWrite_fail]; rfl

/-- What a command leaves whose last two operations were the cleanup, `pending` before it: the mode is `Sleep` where the write of it
answered `ok` (R184). -/
def State.cleanedUp (s : State) (ops : List Op) (pending : Status) (a6 a7 : Answer) : State :=
  (s.withMode (if a6 = .fail then s.radio.operatingMode else .sleep)).completed ops
    (afterCleanupWrite (afterCleanupWrite pending a6) a7) 0

/-- Both cleanup writes are issued whatever they answer. -/
theorem progCleanup_run {a6 a7 : Answer} (h : s.env.replies (cleanupOps c) = [a6, a7]) :
    (progCleanup c).run s = s.cleanedUp (cleanupOps c) s.seq.pending a6 a7 := by
  obtain ⟨h6, rfl⟩ : _ ∧ _ := by simpa [cleanupOps] using h
  rw [State.cleanedUp, cleanupOps, ← State.completed_transact]
  refine (Prog.run_withSeq _ (q := { s.seq with step := 7 }) rfl).trans ?_
  cases a6 with
  | ok d => rw [cleanupWrite_ok h6, run_update, cleanupWrite_respondPending, afterCleanupWrite_ok]; rfl
  | fail => rw [cleanupWrite_fail h6, cleanupWrite_respondPending, afterCleanupWrite_fail]; rfl

/-- The cleanup after operations with no update between them. -/
theorem progCleanup_issueAll {ops : List Op} {a6 a7 : Answer} (h : (s.env.after ops).replies (cleanupOps c) = [a6, a7]) :
    (progCleanup c).run (s.issueAll ops) = s.cleanedUp (ops ++ cleanupOps c) s.seq.pending a6 a7 := by
  rw [← State.issueAll_env] at h
  rw [progCleanup_run h, State.cleanedUp, State.withMode_issueAll, State.completed_issueAll, State.issueAll_radio,
    State.issueAll_pending, State.cleanedUp]

end

/-! ## The poll loop (R182, R183) -/

section
variable {c : Config} {s : State} {v : Byte} {n : Nat} {ops : List Op} {a6 a7 : Answer}

theorem txDone_iff (c : Config) (v : Byte) : txDone c v = true ↔ v &&& c.irqTxDone ≠ 0 := bne_iff_ne

/-- One iteration, without the sequencer's counters. -/
theorem progPollTxDone_succ (c : Config) (n : Nat) (s : State) :
    (progPollTxDone c (n + 1)).run s =
      (regReadElse (.update (.setPending .regReadFailed) (progCleanup c)) c.addrIrqFlags fun v =>
        if txDone c v then .update (.setPending .ok) (progCleanup c) else delay c.pollDelayMs (progPollTxDone c n)).run s :=
  Prog.run_withSeq _ (q := { s.seq with step := 5, iter := s.seq.iter + 1 }) rfl

/-- Transmit-done not seen: one read, one delay, and the loop goes on. -/
theorem progPollTxDone_again (hread : s.env.reply (.read c.addrIrqFlags) = .ok [v]) (hv : v &&& c.irqTxDone = 0) :
    (progPollTxDone c (n + 1)).run s = (progPollTxDone c n).run (s.issueAll (pollRounds c 1)) := by
  have hdone : ¬ txDone c v = true := fun h => (txDone_iff c v).mp h hv
  rw [progPollTxDone_succ, regReadElse_ok hread, if_neg hdone]
  rfl

/-- A read of the flags that leaves the loop, and the cleanup. -/
theorem progCleanup_after_read (st : Status)
    (h : ((s.env.after ops).next (.read c.addrIrqFlags)).replies (cleanupOps c) = [a6, a7]) :
    (progCleanup c).run (((s.issueAll ops).transact (.read c.addrIrqFlags)).apply (.setPending st)) =
      s.cleanedUp (ops ++ [.read c.addrIrqFlags] ++ cleanupOps c) st a6 a7 := by
  have hissued : ((s.issueAll ops).transact (.read c.addrIrqFlags)).apply (.setPending st) =
      (s.apply (.setPending st)).issueAll (ops ++ [.read c.addrIrqFlags]) := by
    rw [← State.setPending_issueAll, State.issueAll_append]
    rfl
  rw [hissued, progCleanup_issueAll (s := s.apply (.setPending st)) (by rw [Env.after_append]; exact h)]
  rfl

/-- Rounds in which transmit-done is not seen, one for each byte read, with `n` iterations left after them. -/
theorem progPollTxDone_rounds {vs : List Byte} (h : s.env.replies (pollRounds c vs.length) = roundAnswers vs)
    (hvs : ∀ x ∈ vs, x &&& c.irqTxDone = 0) :
    (progPollTxDone c (vs.length + n)).run s = (progPollTxDone c n).run (s.issueAll (pollRounds c vs.length)) := by
  induction vs generalizing s with
  | nil => rw [List.length_nil, Nat.zero_add]; rfl
  | cons v vs ih =>
    obtain ⟨hread, hrest⟩ := List.cons.inj h
    rw [List.length_cons, Nat.add_right_comm, progPollTxDone_again hread (hvs v List.mem_cons_self),
      ih (List.cons.inj hrest).2 fun x hx => hvs x (List.mem_cons_of_mem v hx)]
    rfl

/-- The first exit: transmit-done seen. -/
theorem progPollTxDone_done (h : (s.env.after ops).replies (.read c.addrIrqFlags :: cleanupOps c) = [.ok [v], a6, a7])
    (hv : v &&& c.irqTxDone ≠ 0) :
    (progPollTxDone c (n + 1)).run (s.issueAll ops) = s.cleanedUp (ops ++ [.read c.addrIrqFlags] ++ cleanupOps c) .ok a6 a7 := by
  obtain ⟨hread, hcleanup⟩ := List.cons.inj h
  rw [← State.issueAll_env] at hread
  rw [progPollTxDone_succ, regReadElse_ok hread, if_pos ((txDone_iff c v).mpr hv)]
  exact progCleanup_after_read _ hcleanup

/-- The second exit: a failed read (D19). -/
theorem progPollTxDone_readFails (h : (s.env.after ops).replies (.read c.addrIrqFlags :: cleanupOps c) = [.fail, a6, a7]) :
    (progPollTxDone c (n + 1)).run (s.issueAll ops) = s.cleanedUp (ops ++ [.read c.addrIrqFlags] ++ cleanupOps c) .regReadFailed a6 a7 := by
  obtain ⟨hread, hcleanup⟩ := List.cons.inj h
  rw [← State.issueAll_env] at hread
  rw [progPollTxDone_succ, regReadElse_fail hread]
  exact progCleanup_after_read _ hcleanup

/-- The third exit: the cap (R183). -/
theorem progPollTxDone_cap (h : (s.env.after ops).replies (cleanupOps c) = [a6, a7]) :
    (progPollTxDone c 0).run (s.issueAll ops) = (s.apply .countLost).cleanedUp (ops ++ cleanupOps c) s.seq.pending a6 a7 := by
  rw [progPollTxDone, run_update, State.countLost_issueAll, progCleanup_issueAll (s := s.apply .countLost) h]
  rfl

end

/-! ## The command up to the loop's exit -/

/-- All steps of the arming answered `ok`, and transmit-done not seen in as many polls as `vs` has bytes, `n` being left (R180, R182). -/
theorem progSendPacket_polled {len : Byte} {s : State} {vs : List Byte} {n : Nat} {ops : List Op} {as : List Answer}
    (hcap : s.config.pollCap = vs.length + n) (hvs : ∀ x ∈ vs, x &&& s.config.irqTxDone = 0)
    (h : s.env.replies (armOps s.config len ++ pollRounds s.config vs.length ++ ops) =
      allOk (armOps s.config len) ++ roundAnswers vs ++ as) :
    (progSendPacket s.config len).run s =
        (progPollTxDone s.config n).run (s.armed.issueAll (armOps s.config len ++ pollRounds s.config vs.length)) ∧
      (s.armed.env.after (armOps s.config len ++ pollRounds s.config vs.length)).replies ops = as := by
  obtain ⟨harmed, hrest⟩ := Env.replies_split (by simp [allOk, roundAnswers_length, pollRounds_length]) h
  obtain ⟨harm, hrounds⟩ := Env.replies_split (by simp [allOk]) harmed
  refine ⟨?_, hrest⟩
  have hpoll : (s.armed.issueAll (armOps s.config len)).env.replies (pollRounds s.config vs.length) = roundAnswers vs := by
    rw [State.issueAll_env]
    exact hrounds
  rw [progSendPacket_armed harm, hcap, progPollTxDone_rounds hpoll hvs, State.issueAll_append]

/-- Settles O48: a failure of step 1 ends the command before any update; the later steps are checked operations after `Standby`. -/
theorem sendPacketArmingAborts : Obligations.SendPacketArmingAborts := by
  rintro len s k ops hk rfl h
  refine exec_of_program rfl ?_
  cases k with
  | zero => exact progSendPacket_standby_fails (List.cons.inj h).1
  | succ k => exact (progSendPacket_of_standby (List.cons.inj h).1).trans (checkedOps_fails hk h)

/-- Settles O45: the loop's first exit, with `OK` pending. -/
theorem sendPacketTransmitDone : Obligations.SendPacketTransmitDone := by
  rintro len s vs v a6 a7 ops hlt hvs hv rfl h
  obtain ⟨n, hn⟩ := Nat.exists_eq_add_of_lt hlt
  rw [List.append_assoc] at h
  obtain ⟨hrun, hexit⟩ := progSendPacket_polled (n := n + 1) hn hvs h
  refine exec_of_program rfl (hrun.trans ((progPollTxDone_done hexit hv).trans ?_))
  rw [State.cleanedUp, afterCleanupWrite_twice_ok]
  rfl

/-- Settles O47: the loop's second exit, with `REG_READ_FAILED` pending. -/
theorem sendPacketPollReadFails : Obligations.SendPacketPollReadFails := by
  rintro len s vs a6 a7 ops hlt hvs rfl h
  obtain ⟨n, hn⟩ := Nat.exists_eq_add_of_lt hlt
  rw [List.append_assoc] at h
  obtain ⟨hrun, hexit⟩ := progSendPacket_polled (n := n + 1) hn hvs h
  refine exec_of_program rfl (hrun.trans ((progPollTxDone_readFails hexit).trans ?_))
  rw [State.cleanedUp, afterCleanupWrite_twice_of_ne_ok (by decide)]
  rfl

/-- Settles O46: the loop's third exit, with `SEND_TIMEOUT` pending since the arming. -/
theorem sendPacketTimesOut : Obligations.SendPacketTimesOut := by
  rintro len s vs a6 a7 ops hcap hvs rfl h
  rw [← hcap] at h ⊢
  obtain ⟨hrun, hexit⟩ := progSendPacket_polled (n := 0) hcap.symm hvs h
  refine exec_of_program rfl (hrun.trans ((progPollTxDone_cap hexit).trans ?_))
  have hpending : s.armed.seq.pending = .sendTimeout := rfl
  rw [State.cleanedUp, hpending, afterCleanupWrite_twice_of_ne_ok (by decide)]
  rfl

end Sys2Proof.Machine
end

section
/-! PROOFS. The FIFO of a plain chip (20_memory R83; log 12), and the payload of `SEND_PACKET` in it (42_packet_tx R180, R185). -/

namespace Sys2Proof.Machine

/-! ## Transactions that leave the FIFO alone -/

section
variable {c : Config} {a : Addr}

theorem Chip.storeByte_fifo (ha : a ≠ c.addrFifo) (x : Chip) (v : Byte) : (Chip.storeByte c x a v).fifo = x.fifo := by
  rw [Chip.storeByte, if_neg ha]
  split <;> rfl

theorem Chip.storeBytes_fifo (ha : a ≠ c.addrFifo) (x : Chip) (bytes : List Byte) : (Chip.storeBytes c a x bytes).fifo = x.fifo := by
  induction bytes generalizing x with
  | nil => rfl
  | cons v rest ih => rw [Chip.storeBytes, ih, Chip.storeByte_fifo ha]

theorem Chip.afterLoad_fifo (x : Chip) : (Chip.afterLoad c x a).fifo = x.fifo := by
  unfold Chip.afterLoad
  split <;> rfl

theorem Chip.loadBytes_fifo (x : Chip) (n : Nat) : (Chip.loadBytes c a x n).2.fifo = x.fifo := by
  induction n generalizing x with
  | zero => rfl
  | succ n ih => rw [Chip.loadBytes, ih, Chip.afterLoad_fifo]

end

/-- The operation writes nothing to the FIFO. -/
def Op.SparesFifo (c : Config) (op : Op) : Prop := op.address ≠ some c.addrFifo

theorem Chip.serve_fifo {c : Config} {op : Op} (h : op.SparesFifo c) (tx : Memory) (x : Chip) :
    (Chip.serve c x (op.onPort tx)).2.fifo = x.fifo := by
  cases op with
  | busInit | delay ms => rfl
  | write a v => exact Chip.storeByte_fifo (fun e => h (congrArg some e)) x v
  | burstWrite a n => exact Chip.storeBytes_fifo (fun e => h (congrArg some e)) x _
  | read a => exact Chip.afterLoad_fifo x
  | burstRead a n => exact Chip.loadBytes_fifo x n

/-- A pseudocode that never addresses the FIFO leaves it as it is. -/
theorem Prog.Only.onChip_fifo {c : Config} {U : Upd → Prop} {p : Prog} (hp : p.Only (Op.SparesFifo c) U) (tx : Memory) (x : Chip)
    (r : Radio) (pending : Status) : (p.onChip c tx x r pending).1.fifo = x.fifo := by
  induction p generalizing x r pending with
  | respond st d => rfl
  | respondPending => rfl
  | issue op k ih => exact (ih _ (hp.2 _) _ _ _).trans (Chip.serve_fifo hp.1 tx x)
  | update u p ih => exact ih hp.2 _ _ _
  | ask k ih => exact ih r (hp r) _ _ _

/-! ## A burst into the FIFO -/

section
variable {c : Config} {x : Chip}

theorem Chip.cursor_storeByte_fifo (hx : Memory.wf x.regs = true) (v : Byte) :
    Chip.cursor c (Chip.storeByte c x c.addrFifo v) = Chip.cursor c x + 1 := by
  rw [Chip.storeByte, if_pos rfl]
  exact Memory.read_write_same hx

/-- The bytes of a burst lie from the cursor on, where they do not run past position 255 (R80, R83). -/
theorem Chip.storeBytes_fifo_eq_writeFrom {bytes : List Byte} (hx : Memory.wf x.regs = true)
    (hfit : (Chip.cursor c x).toNat + bytes.length < 256) :
    (Chip.storeBytes c c.addrFifo x bytes).fifo = Memory.writeFrom x.fifo (Chip.cursor c x).toNat bytes := by
  induction bytes generalizing x with
  | nil => rfl
  | cons v rest ih =>
    rw [List.length_cons] at hfit
    have hcursor : (Chip.cursor c (Chip.storeByte c x c.addrFifo v)).toNat = (Chip.cursor c x).toNat + 1 := by
      rw [Chip.cursor_storeByte_fifo hx]
      exact BitVec.toNat_add_of_lt (show (Chip.cursor c x).toNat + 1 < 256 by omega)
    have hfifo : (Chip.storeByte c x c.addrFifo v).fifo = Memory.write x.fifo (Chip.cursor c x).toNat v := by
      rw [Chip.storeByte, if_pos rfl]
      rfl
    rw [Chip.storeBytes, ih (Chip.storeByte_wf hx _ _) (by omega), hcursor, hfifo, Memory.writeFrom]

theorem Memory.firstBytes_length (m : Memory) (n : Nat) : (Memory.firstBytes m n).length = n := by
  simp [Memory.firstBytes]

theorem Memory.firstBytes_getD (m : Memory) {n j : Nat} (hj : j < n) : (Memory.firstBytes m n).getD j 0 = Memory.read m j := by
  simp [Memory.firstBytes, List.getD_eq_getElem?_getD, hj]

/-- A burst write of the payload, and what follows it addressing the FIFO no more; an empty one is skipped (R75). -/
theorem burstWriteElse_onChip_fifo {f k : Prog} {U : Upd → Prop} (hk : k.Only (Op.SparesFifo c) U) (tx : Memory)
    (hx : Memory.wf x.regs = true) {n : Nat} (hfit : (Chip.cursor c x).toNat + n < 256) (next : Nat) (r : Radio) (pending : Status) :
    ((burstWriteElse f c.addrFifo n next k).onChip c tx x r pending).1.fifo =
      Memory.writeFrom x.fifo (Chip.cursor c x).toNat (Memory.firstBytes tx n) := by
  unfold burstWriteElse
  split
  · next hn => subst hn; exact hk.onChip_fifo tx x r _
  · rw [Prog.onChip]
    refine (hk.onChip_fifo tx _ r pending).trans (Chip.storeBytes_fifo_eq_writeFrom hx ?_)
    rwa [Memory.firstBytes_length]

end

/-! ## The payload -/

section
variable {c : Config} (h : Params c)
include h

/-- The FIFO stands first in the table, and the addresses of the table differ (R7). -/
theorem Params.ne_addrFifo {a : Addr} (ha : a ∈ c.namedAddresses.tail) : a ≠ c.addrFifo :=
  fun e => (List.nodup_cons.mp h.nodup).1 (e ▸ ha)

theorem Params.addrOpMode_ne : c.addrOpMode ≠ c.addrFifo := h.ne_addrFifo (by simp [Config.namedAddresses])

theorem Params.addrFifoAddrPtr_ne : c.addrFifoAddrPtr ≠ c.addrFifo := h.ne_addrFifo (by simp [Config.namedAddresses])

theorem Params.addrPayloadLength_ne : c.addrPayloadLength ≠ c.addrFifo := h.ne_addrFifo (by simp [Config.namedAddresses])

theorem Params.addrIrqFlags_ne : c.addrIrqFlags ≠ c.addrFifo := h.ne_addrFifo (by simp [Config.namedAddresses])

theorem progCleanup_sparesFifo : (progCleanup c).Only (Op.SparesFifo c) fun _ => True := by
  simp [progCleanup, Op.SparesFifo, Op.address, h.addrOpMode_ne, h.addrIrqFlags_ne]

theorem progPollTxDone_sparesFifo (n : Nat) : (progPollTxDone c n).Only (Op.SparesFifo c) fun _ => True := by
  have hcleanup := progCleanup_sparesFifo h
  induction n with
  | zero => simpa [progPollTxDone] using hcleanup
  | succ n ih => simp [progPollTxDone, Op.SparesFifo, Op.address, h.addrIrqFlags_ne, hcleanup, ih]

/-- R83: writing the cursor register places the cursor. -/
theorem Params.cursor_storeByte {x : Chip} (hx : Memory.wf x.regs = true) (v : Byte) :
    Chip.cursor c (Chip.storeByte c x c.addrFifoAddrPtr v) = v := by
  have hptr := h.plainRegister (i := 7) (show 7 < 27 by decide) (by decide) (by decide)
  exact (if_neg h.addrFifoAddrPtr_ne).symm.trans (Chip.loadByte_storeByte hptr hx v)

/-- R180: the payload is written from position 0 on, and nothing else is written to the FIFO. -/
theorem progSendPacket_onChip_fifo (len : Byte) (tx : Memory) {x : Chip} (hx : Memory.wf x.regs = true) (r : Radio)
    (pending : Status) :
    ((progSendPacket c len).onChip c tx x r pending).1.fifo = Memory.writeFrom x.fifo 0 (Memory.firstBytes tx len.toNat) := by
  have hstandby := Chip.storeByte_wf (c := c) hx c.addrOpMode (modeByte c .standby)
  have hcursor := h.cursor_storeByte hstandby 0x00
  have hfit : (0x00 : Byte).toNat + len.toNat < 256 := (Nat.zero_add _).trans_lt len.isLt
  rw [← hcursor] at hfit
  refine (burstWriteElse_onChip_fifo (U := fun _ => True) ?_ tx (Chip.storeByte_wf hstandby _ _) hfit 3 _ pending).trans ?_
  · simp [Op.SparesFifo, Op.address, h.addrPayloadLength_ne, h.addrOpMode_ne, progPollTxDone_sparesFifo h]
  · rw [hcursor, Chip.storeByte_fifo h.addrFifoAddrPtr_ne, Chip.storeByte_fifo h.addrOpMode_ne]
    rfl

end

/-- Settles O49: the run leaves the chip that the pseudocode leaves, and of its FIFO the payload's positions hold the payload. -/
theorem payloadReachesFifoOnPlainChip : Obligations.PayloadReachesFifoOnPlainChip := by
  intro len s t x y hwf hfifo hregs he hfollow j hj
  rw [exec_eq_run] at he
  cases he
  obtain ⟨rfl, -⟩ := Prog.run_onChip _ hfollow
  rw [program, progSendPacket_onChip_fifo (Params.of hwf) len s.txbuf hregs]
  have hread := Memory.read_writeFrom_inside (start := 0) hfifo (hj.trans_eq (Memory.firstBytes_length s.txbuf len.toNat).symm)
  rwa [Nat.zero_add, Memory.firstBytes_getD _ hj] at hread

end Sys2Proof.Machine
end

section
/-! PROOFS. The statuses that a pseudocode responds by itself (60_exceptions R223), and the lost-packet count of `SEND_PACKET` (42_packet_tx
R183; 10_state R23). -/

namespace Sys2Proof.Machine

/-! ## The statuses of a pseudocode -/

/-- The pseudocode responds no pending status, and every status it responds meets `S`. -/
def Prog.RespondsIn (S : Status → Prop) : Prog → Prop
  | .respond st _ => S st
  | .respondPending => False
  | .issue _ k => ∀ a, (k a).RespondsIn S
  | .update _ p => p.RespondsIn S
  | .ask k => ∀ r, (k r).RespondsIn S

theorem Prog.RespondsIn.run {S : Status → Prop} {p : Prog} (h : p.RespondsIn S) (s : State) :
    ∃ r, (p.run s).responses = s.responses ++ [r] ∧ S r.status := by
  induction p generalizing s with
  | respond st d => exact ⟨_, rfl, h⟩
  | respondPending => exact h.elim
  | issue op k ih => exact ih _ (h _) (s.transact op)
  | update u p ih => exact ih h (s.apply u)
  | ask k ih => exact ih _ (h _) s

section
variable {S : Status → Prop}

@[simp] theorem respond_respondsIn (st : Status) (d : Word) : (Prog.respond st d).RespondsIn S ↔ S st := Iff.rfl

@[simp] theorem raise_respondsIn (st : Status) : (raise st).RespondsIn S ↔ S st := Iff.rfl

@[simp] theorem raiseWith_respondsIn (st : Status) (d : Word) : (raiseWith st d).RespondsIn S ↔ S st := Iff.rfl

@[simp] theorem update_respondsIn (u : Upd) (p : Prog) : (Prog.update u p).RespondsIn S ↔ p.RespondsIn S := Iff.rfl

@[simp] theorem ask_respondsIn (k : Radio → Prog) : (Prog.ask k).RespondsIn S ↔ ∀ r, (k r).RespondsIn S := Iff.rfl

@[simp] theorem ite_respondsIn (P : Prop) [Decidable P] (p q : Prog) :
    (if P then p else q).RespondsIn S ↔ if P then p.RespondsIn S else q.RespondsIn S := by
  split <;> rfl

@[simp] theorem regWriteElse_respondsIn (f : Prog) (a : Addr) (v : Byte) (k : Prog) :
    (regWriteElse f a v k).RespondsIn S ↔ k.RespondsIn S ∧ f.RespondsIn S := by
  simp [regWriteElse, Prog.RespondsIn, Answer.forall]

@[simp] theorem regWrite_respondsIn (a : Addr) (v : Byte) (k : Prog) :
    (regWrite a v k).RespondsIn S ↔ k.RespondsIn S ∧ S .regWriteFailed := by
  simp [regWrite]

@[simp] theorem regReadElse_respondsIn (f : Prog) (a : Addr) (k : Byte → Prog) :
    (regReadElse f a k).RespondsIn S ↔ (∀ b, (k b).RespondsIn S) ∧ f.RespondsIn S := by
  simp only [regReadElse, Prog.RespondsIn, Answer.forall, forall_headD_iff fun b => (k b).RespondsIn S]

@[simp] theorem regRead_respondsIn (a : Addr) (k : Byte → Prog) :
    (regRead a k).RespondsIn S ↔ (∀ b, (k b).RespondsIn S) ∧ S .regReadFailed := by
  simp [regRead]

@[simp] theorem rmw_respondsIn (a : Addr) (mask val : Byte) (k : Prog) :
    (rmw a mask val k).RespondsIn S ↔ (k.RespondsIn S ∧ S .regWriteFailed) ∧ S .regReadFailed := by
  simp [rmw]

@[simp] theorem busInit_respondsIn (k : Prog) : (busInit k).RespondsIn S ↔ k.RespondsIn S ∧ S .busInitFailed := by
  simp [busInit, Prog.RespondsIn, Answer.forall]

@[simp] theorem delay_respondsIn (ms : Nat) (k : Prog) : (delay ms k).RespondsIn S ↔ k.RespondsIn S :=
  ⟨fun h => h .fail, fun h _ => h⟩

@[simp] theorem setMode_respondsIn (c : Config) (m : Mode) (k : Prog) :
    (setMode c m k).RespondsIn S ↔ k.RespondsIn S ∧ S .regWriteFailed := by
  simp [setMode, setModeElse]

theorem burstRead_respondsIn {k : Prog} (hk : k.RespondsIn S) (hfail : S .bufReadFailed) (a : Addr) (n next : Nat) :
    (burstRead a n next k).RespondsIn S := by
  simp [burstRead, Prog.RespondsIn, Answer.forall, hk, hfail]

end

/-! ## The statuses of the commands -/

/-- R223: `OK`, or a status that the table gives the command. -/
def MayRespond (i : Instr) (st : Status) : Prop := st = .ok ∨ st ∈ mayReturn i

theorem progPollVersion_respondsIn (c : Config) (n : Nat) : (progPollVersion c n).RespondsIn (MayRespond .driverInit) := by
  induction n with
  | zero => simp [progPollVersion, MayRespond, mayReturn]
  | succ n ih => simp [progPollVersion, progInitTail, MayRespond, mayReturn, ih]

theorem progDumpFrom_respondsIn (c : Config) (j n : Nat) : (progDumpFrom c j n).RespondsIn (MayRespond .dumpRegisters) := by
  induction n generalizing j with
  | zero => simp [progDumpFrom, MayRespond, mayReturn]
  | succ n ih => simp [progDumpFrom, MayRespond, mayReturn, ih]

theorem progReceivePacket_respondsIn (c : Config) (cap : BitVec 32) :
    (progReceivePacket c cap).RespondsIn (MayRespond (.receivePacket cap)) := by
  have hburst (n : Nat) : (burstRead c.addrFifo n 7 (.respond .ok (BitVec.ofNat 32 n))).RespondsIn (MayRespond (.receivePacket cap)) :=
    burstRead_respondsIn (by simp [MayRespond]) (by simp [MayRespond, mayReturn]) _ _ _
  simp [progReceivePacket, hburst, MayRespond, mayReturn]

/-- Every command but `SEND_PACKET`, whose cleanup ends in the pending status, responds by itself, as R223's table says. -/
theorem program_respondsIn (c : Config) {i : Instr} (hi : ∀ n, i ≠ .sendPacket n) : (program c i).RespondsIn (MayRespond i) := by
  cases i with
  | sendPacket len => exact absurd rfl (hi len)
  | driverInit => simp [program, progDriverInit, progPollVersion_respondsIn, MayRespond, mayReturn]
  | receivePacket cap => exact progReceivePacket_respondsIn c cap
  | dumpRegisters => exact progDumpFrom_respondsIn c 0 c.dumpCount
  | setFrequency _ | setSpreadingFactor _ | setPreambleLength _ | setSyncWord _ | setTxPower _ =>
    simp [program, progSetFrequency, progSetSpreadingFactor, progSetPreambleLength, progSetSyncWord, progSetTxPower, MayRespond,
      mayReturn]
  | setBandwidth _ | setCodingRate _ | setCrc _ | setDioMapping _ _ =>
    simp [program, progSetBandwidth, progSetCodingRate, progSetCrc, progSetDioMapping, MayRespond, mayReturn]
  | getFrequency | getPreambleLength | getBandwidth | getDioMapping _ =>
    simp [program, progGetFrequency, progGetPreambleLength, progGetBandwidth, progGetDioMapping, MayRespond, mayReturn]
  | getSpreadingFactor | getCodingRate | getSyncWord | getCrc | getTxPower =>
    simp [program, progGetSpreadingFactor, progGetCodingRate, progGetSyncWord, progGetCrc, progGetTxPower, MayRespond, mayReturn]
  | close | modeSleep | modeStandby | modeReceive | modeTransmit => simp [program, progClose, progMode, MayRespond, mayReturn]
  | setExplicitHeader | setImplicitHeader _ =>
    simp [program, progSetExplicitHeader, progSetImplicitHeader, MayRespond, mayReturn]
  | pollReceived | getIrqFlags | packetLostCount | packetRssi | packetSnr =>
    simp [program, progPollReceived, progGetIrqFlags, progPacketLostCount, progPacketRssi, progPacketSnr, MayRespond, mayReturn]

/-- `SEND_TIMEOUT` is `SEND_PACKET`'s alone (R223). -/
theorem not_mayRespond_sendTimeout {i : Instr} (hi : ∀ n, i ≠ .sendPacket n) : ¬ MayRespond i .sendTimeout := by
  cases i with
  | sendPacket len => exact absurd rfl (hi len)
  | _ => simp [MayRespond, mayReturn]

/-! ## The lost-packet count -/

/-- R183: the count goes up, saturating, with `SEND_TIMEOUT`, and stays with every other status; `n` is the count before. -/
def CountsTimeout (n : BitVec 32) (r : Radio) (resp : Response) : Prop :=
  r.lostPacketCount = if resp.status = .sendTimeout then countLostOnce n else n

theorem countLostOnce_toNat (n : BitVec 32) : (countLostOnce n).toNat = min (n.toNat + 1) (2 ^ 32 - 1) :=
  (BitVec.toNat_ofNat _ _).trans (Nat.mod_eq_of_lt (by omega))

section
variable {c : Config} {tx : Memory} {n : BitVec 32} {es : List Entry} {r : Radio} {p : Status}

/-- A cleanup write that fails makes `OK` pending into another status that is no `SEND_TIMEOUT` (R184). -/
theorem CountsTimeout.cleanupFailed (h : CountsTimeout n r { status := p, data := 0 }) :
    CountsTimeout n r { status := if p = .ok then .regWriteFailed else p, data := 0 } := by
  split
  · next hp => subst hp; exact h
  · exact h

/-- The cleanup keeps the count, and a pending `SEND_TIMEOUT` (R183, R184). -/
theorem progCleanup_countsTimeout (h : CountsTimeout n r { status := p, data := 0 }) :
    (progCleanup c).wp tx (fun _ => CountsTimeout n) es r p := by
  have hirq {es r p} (h : CountsTimeout n r { status := p, data := 0 }) :
      (cleanupWrite c.addrIrqFlags c.irqTxDone id .respondPending).wp tx (fun _ => CountsTimeout n) es r p :=
    cleanupWrite_wp (respondPending_wp h) (respondPending_wp h.cleanupFailed)
  exact update_wp (cleanupWrite_wp (update_wp (hirq h)) (hirq h.cleanupFailed))

/-- Of the loop's exits the cap alone counts, and it alone leaves `SEND_TIMEOUT` pending (R182, R183). -/
theorem progPollTxDone_countsTimeout (hr : r.lostPacketCount = n) (k : Nat) :
    (progPollTxDone c k).wp tx (fun _ => CountsTimeout n) es r .sendTimeout :=
  progPollTxDone_wp c (fun _ _ => True) k trivial (fun _ _ _ _ _ => trivial) (fun _ _ _ _ _ => progCleanup_countsTimeout hr)
    (fun _ _ _ => progCleanup_countsTimeout hr) fun _ _ => progCleanup_countsTimeout (congrArg countLostOnce hr)

/-- An arming that fails ends in `FAILURE`, which does not count (R181). -/
theorem progSendPacket_countsTimeout (hr : r.lostPacketCount = n) (len : Byte) :
    (progSendPacket c len).wp tx (fun _ => CountsTimeout n) es r p := by
  have habort {es : List Entry} {r : Radio} {p : Status} (hr : r.lostPacketCount = n) :
      (raise .failure).wp tx (fun _ => CountsTimeout n) es r p := raise_wp hr
  have htail {es : List Entry} {r : Radio} {p : Status} (hr : r.lostPacketCount = n) :
      (regWriteElse (raise .failure) c.addrPayloadLength len <| setModeElse (raise .failure) c .transmit <|
        .update (.setPending .sendTimeout) <| progPollTxDone c c.pollCap).wp tx (fun _ => CountsTimeout n) es r p :=
    have hpoll := progPollTxDone_countsTimeout (r := { r with operatingMode := .transmit }) hr c.pollCap
    regWriteElse_wp (regWriteElse_wp (update_wp (update_wp hpoll)) (habort hr)) (habort hr)
  exact regWriteElse_wp
    (update_wp (regWriteElse_wp (burstWriteElse_wp (fun _ => htail hr) (fun _ => htail hr) fun _ => habort hr) (habort hr)))
    (habort hr)

end

/-- R183 for every command: `SEND_PACKET` counts by its pseudocode; no other writes the count, and none responds `SEND_TIMEOUT`. -/
theorem exec_countsTimeout {i : Instr} {s t : State} {r : Response} (he : exec i s = .next t)
    (hr : t.responses = s.responses ++ [r]) : CountsTimeout s.radio.lostPacketCount t.radio r := by
  by_cases hi : ∃ len, i = .sendPacket len
  · obtain ⟨len, rfl⟩ := hi
    obtain ⟨r', -, hr', hcounts⟩ := exec_wp he (progSendPacket_countsTimeout rfl len)
    obtain rfl : r' = r := by simpa [hr'] using hr
    exact hcounts
  · have hne : ∀ len, i ≠ .sendPacket len := fun len h => hi ⟨len, h⟩
    obtain ⟨-, -, -, hcount, -⟩ := radioStateWriters i s t he
    rw [exec_eq_run] at he
    cases he
    obtain ⟨r', hr', hst⟩ := (program_respondsIn s.config hne).run s
    obtain rfl : r' = r := by simpa [hr'] using hr
    have hother : r'.status ≠ .sendTimeout := fun h => not_mayRespond_sendTimeout hne (h ▸ hst)
    rw [CountsTimeout, if_neg hother]
    exact hcount hne

/-- Settles O21, by the saturating increment and its value. -/
theorem lostCountCountsTimeouts : Obligations.LostCountCountsTimeouts := by
  intro i s t r he hr
  have hcount := exec_countsTimeout he hr
  have hbound := s.radio.lostPacketCount.isLt
  unfold CountsTimeout at hcount
  split at hcount
  · next hst =>
    have hval := (congrArg BitVec.toNat hcount).trans (countLostOnce_toNat _)
    exact ⟨fun _ => hval, fun hne => absurd hst hne, by omega⟩
  · next hst => exact ⟨fun h => absurd h hst, fun _ => hcount, hcount ▸ Nat.le_refl _⟩

end Sys2Proof.Machine
end

section
/-! PROOFS. `RECEIVE_PACKET` and `POLL_RECEIVED` as sequences of transactions (43_packet_rx R190 to R192): the flags, the good packet, and
each failing transaction. -/

namespace Sys2Proof.Machine

/-! ## The flags (R40, R190, R192) -/

section
variable {c : Config} {v : Byte}

theorem rxDone_iff (c : Config) (v : Byte) : rxDone c v = true ↔ v &&& c.irqRxDone ≠ 0 := bne_iff_ne

theorem rxDone_eq_false_iff (c : Config) (v : Byte) : rxDone c v = false ↔ v &&& c.irqRxDone = 0 := bne_eq_false_iff_eq

theorem crcErrorFlag_iff (c : Config) (v : Byte) : crcErrorFlag c v = true ↔ v &&& c.irqCrcError ≠ 0 := bne_iff_ne

theorem crcErrorFlag_eq_false_iff (c : Config) (v : Byte) : crcErrorFlag c v = false ↔ v &&& c.irqCrcError = 0 :=
  bne_eq_false_iff_eq

/-- R192: a CRC-error counts only together with receive-done. -/
theorem pollCrcError_eq (c : Config) (v : Byte) : pollCrcError c v = (rxDone c v && crcErrorFlag c v) := rfl

theorem pollData_of_not_rxDone (hrx : rxDone c v = false) : pollData c v = 0 := by
  simp [pollData, pollCrcError_eq, hrx]

theorem pollData_of_good (hrx : rxDone c v = true) (hcrc : crcErrorFlag c v = false) : pollData c v = 1 := by
  simp [pollData, pollCrcError_eq, hrx, hcrc]

theorem pollData_of_corrupt (hrx : rxDone c v = true) (hcrc : crcErrorFlag c v = true) : pollData c v = 3 := by
  simp [pollData, pollCrcError_eq, hrx, hcrc]

end

/-! ## A read, then a write -/

section
variable {a a' : Addr} {b : Byte} {f : Byte → Byte} {k : Byte → Prog} {s : State}

/-- A read and a write that both succeed go on; the byte written and what follows may depend on the byte read. -/
theorem regRead_regWrite_ok (h : s.env.replies [.read a, .write a' (f b)] = [.ok [b], .ok []]) :
    (regRead a fun x => regWrite a' (f x) (k x)).run s = (k b).run (s.issueAll [.read a, .write a' (f b)]) := by
  obtain ⟨hread, hwrite⟩ : _ ∧ _ := by simpa using h
  rw [regRead, regReadElse_ok hread, regWrite, regWriteElse_ok hwrite]
  rfl

theorem regRead_regWrite_fails (h : s.env.replies [.read a, .write a' (f b)] = [.ok [b], .fail]) :
    (regRead a fun x => regWrite a' (f x) (k x)).run s = s.completed [.read a, .write a' (f b)] .regWriteFailed 0 := by
  obtain ⟨hread, hwrite⟩ : _ ∧ _ := by simpa using h
  exact regRead_completes hread (regWrite_fails hwrite)

end

/-- The answers to operations issued in order, taken apart: those to the first list, and those the rest gets after it. -/
theorem replies_issueAll {s : State} {xs ys : List Op} {as bs : List Answer} (hl : as.length = xs.length)
    (h : s.env.replies (xs ++ ys) = as ++ bs) : s.env.replies xs = as ∧ (s.issueAll xs).env.replies ys = bs := by
  rw [State.issueAll_env]
  exact Env.replies_split hl h

/-! ## POLL_RECEIVED (R192) -/

section
variable {c : Config} {v : Byte} {s : State}

theorem progPollReceived_readFails (h : s.env.replies [.read c.addrIrqFlags] = [.fail]) :
    (progPollReceived c).run s = s.completed [.read c.addrIrqFlags] .regReadFailed 0 := regRead_fails (List.cons.inj h).1

/-- Nothing to clear: one read, and the flags are answered. -/
theorem progPollReceived_reports (hcrc : pollCrcError c v = false) (h : s.env.replies [.read c.addrIrqFlags] = [.ok [v]]) :
    (progPollReceived c).run s = s.completed [.read c.addrIrqFlags] .ok (pollData c v) := by
  refine regRead_completes (List.cons.inj h).1 ?_
  rw [hcrc]
  exact respond_completes

/-- A CRC-error to clear: the write of that flag, and the flags are answered whatever the write answers (D24). -/
theorem progPollReceived_clears {a : Answer} (hcrc : pollCrcError c v = true)
    (h : s.env.replies [.read c.addrIrqFlags, .write c.addrIrqFlags c.irqCrcError] = [.ok [v], a]) :
    (progPollReceived c).run s = s.completed [.read c.addrIrqFlags, .write c.addrIrqFlags c.irqCrcError]
      (if a = .fail then .regWriteFailed else .ok) (pollData c v) := by
  obtain ⟨hread, hwrite⟩ : _ ∧ _ := by simpa using h
  refine regRead_completes hread ?_
  rw [hcrc, if_pos rfl]
  cases a with
  | ok d => rw [regWriteElse_ok hwrite, run_respond, State.deliver_eq_completed, State.completed_transact]; rfl
  | fail => rw [regWriteElse_fail hwrite, raiseWith, run_respond, State.deliver_eq_completed, State.completed_transact]; rfl

end

/-- Settles O53: the read alone where the flags show no CRC-error to report, else the read and the clearing write. -/
theorem pollReceivedReportsFlags : Obligations.PollReceivedReportsFlags := by
  rintro s v ops rfl
  simp only [← rxDone_iff, ← rxDone_eq_false_iff, ← crcErrorFlag_iff, ← crcErrorFlag_eq_false_iff]
  refine ⟨fun h => exec_of_program rfl ?_, fun h hrx => exec_of_program rfl ?_, fun h hrx hcrc => exec_of_program rfl ?_,
    fun h hrx hcrc => exec_of_program rfl ?_, fun h hrx hcrc => exec_of_program rfl ?_⟩
  · exact progPollReceived_readFails h
  · rw [← pollData_of_not_rxDone hrx]
    exact progPollReceived_reports (by rw [pollCrcError_eq, hrx, Bool.false_and]) h
  · rw [← pollData_of_good hrx hcrc]
    exact progPollReceived_reports (by rw [pollCrcError_eq, hcrc, Bool.and_false]) h
  · rw [← pollData_of_corrupt hrx hcrc]
    exact progPollReceived_clears (by rw [pollCrcError_eq, hrx, hcrc, Bool.and_self]) h
  · rw [← pollData_of_corrupt hrx hcrc]
    exact progPollReceived_clears (by rw [pollCrcError_eq, hrx, hcrc, Bool.and_self]) h

/-! ## RECEIVE_PACKET: the flags (R190, R191) -/

/-- Steps 1 and 2 of R190, where the flags register reads `v`. -/
def flagOps (c : Config) (v : Byte) : List Op := [.read c.addrIrqFlags, .write c.addrIrqFlags v]

/-- Steps 5 to 7 of R190, with `n` bytes to copy. -/
def progCopy (c : Config) (n : Nat) : Prog :=
  regRead c.addrFifoRxCurrent fun p =>
  regWrite c.addrFifoAddrPtr p <|
  burstRead c.addrFifo n 7 <|
  .respond .ok (BitVec.ofNat 32 n)

/-- Steps 3 to 7 of R190: what a good packet leads to. -/
def progTake (c : Config) (cap : BitVec 32) : Prog :=
  .ask fun radio =>
  regRead (lengthRegister c radio.headerMode) fun len =>
  setMode c .standby (progCopy c (copyCount len cap))

/-- R190: the flags are judged only after they were written back. -/
def progJudge (c : Config) (cap : BitVec 32) (v : Byte) : Prog :=
  if !rxDone c v then raise .noData else if crcErrorFlag c v then raise .crcError else progTake c cap

theorem progReceivePacket_eq (c : Config) (cap : BitVec 32) :
    progReceivePacket c cap = regRead c.addrIrqFlags fun v => regWrite c.addrIrqFlags v (progJudge c cap v) := rfl

section
variable {c : Config} {cap : BitVec 32} {v : Byte} {s : State}

theorem progJudge_noData (hrx : rxDone c v = false) : progJudge c cap v = raise .noData := by
  simp [progJudge, hrx]

theorem progJudge_crcError (hrx : rxDone c v = true) (hcrc : crcErrorFlag c v = true) : progJudge c cap v = raise .crcError := by
  simp [progJudge, hrx, hcrc]

theorem progJudge_good (hrx : rxDone c v = true) (hcrc : crcErrorFlag c v = false) : progJudge c cap v = progTake c cap := by
  simp [progJudge, hrx, hcrc]

theorem progReceivePacket_readFails (h : s.env.replies [.read c.addrIrqFlags] = [.fail]) :
    (progReceivePacket c cap).run s = s.completed [.read c.addrIrqFlags] .regReadFailed 0 := regRead_fails (List.cons.inj h).1

theorem progReceivePacket_writeBackFails (h : s.env.replies (flagOps c v) = [.ok [v], .fail]) :
    (progReceivePacket c cap).run s = s.completed (flagOps c v) .regWriteFailed 0 :=
  regRead_regWrite_fails (f := id) (k := progJudge c cap) h

theorem progReceivePacket_judges (h : s.env.replies (flagOps c v) = [.ok [v], .ok []]) :
    (progReceivePacket c cap).run s = (progJudge c cap v).run (s.issueAll (flagOps c v)) :=
  regRead_regWrite_ok (f := id) h

/-- Flags that show no good packet end the command with their status. -/
theorem progReceivePacket_raises {st : Status} (hst : progJudge c cap v = raise st)
    (h : s.env.replies (flagOps c v) = [.ok [v], .ok []]) :
    (progReceivePacket c cap).run s = s.completed (flagOps c v) st 0 := by
  rw [progReceivePacket_judges h, hst, raise_run, State.issueAll_deliver]

end

/-- Settles O50: the read or the write-back fails, or the flags are judged. -/
theorem receivePacketWithoutGoodPacket : Obligations.ReceivePacketWithoutGoodPacket := by
  rintro cap s v ops rfl
  simp only [← rxDone_iff, ← rxDone_eq_false_iff, ← crcErrorFlag_iff]
  refine ⟨fun h => exec_of_program rfl ?_, fun h => exec_of_program rfl ?_, fun h hrx => exec_of_program rfl ?_,
    fun h hrx hcrc => exec_of_program rfl ?_⟩
  · exact progReceivePacket_readFails h
  · exact progReceivePacket_writeBackFails h
  · exact progReceivePacket_raises (progJudge_noData hrx) h
  · exact progReceivePacket_raises (progJudge_crcError hrx hcrc) h

/-! ## RECEIVE_PACKET: a good packet (R190, R191) -/

/-- Steps 1 to 4 of R190. -/
def lengthOps (c : Config) (h : HeaderMode) (v : Byte) : List Op :=
  flagOps c v ++ ([.read (lengthRegister c h), .write c.addrOpMode (modeByte c .standby)] : List Op)

/-- Steps 1 to 6 of R190, where the packet lies at FIFO position `p`. -/
def cursorOps (c : Config) (h : HeaderMode) (v p : Byte) : List Op :=
  lengthOps c h v ++ ([.read c.addrFifoRxCurrent, .write c.addrFifoAddrPtr p] : List Op)

/-- Steps 3 and 4 of R190: a read, a write and its update. -/
theorem progTake_run (c : Config) (cap : BitVec 32) (s : State) :
    (progTake c cap).run s =
      (regRead (lengthRegister c s.radio.headerMode) fun x =>
        regWrite c.addrOpMode (modeByte c .standby) (.update (.setMode .standby) (progCopy c (copyCount x cap)))).run s := rfl

theorem lengthRegister_eq (c : Config) (h : HeaderMode) :
    lengthRegister c h = if h = .implicit then c.addrPayloadLength else c.addrRxNbBytes := by
  cases h <;> rfl

/-- Bytes stored from `rxbuf[0]` on. -/
def State.received (s : State) (bytes : List Byte) : State := { s with rxbuf := Memory.writeFrom s.rxbuf 0 bytes }

theorem State.received_issueAll (s : State) (ops : List Op) (bytes : List Byte) :
    (s.issueAll ops).received bytes = (s.received bytes).issueAll ops := by
  induction ops generalizing s with
  | nil => rfl
  | cons op ops ih => exact ih _

theorem State.received_completed (s : State) (bytes : List Byte) (ops : List Op) (st : Status) (d : Word) :
    (s.received bytes).completed ops st d =
      { s.completed ops st d with rxbuf := ((s.received bytes).completed ops st d).rxbuf } := rfl

theorem State.received_read_inside {s : State} {bytes : List Byte} (hwf : Memory.wf s.rxbuf = true) {j : Nat}
    (hj : j < bytes.length) : Memory.read (s.received bytes).rxbuf j = bytes.getD j 0 := by
  have hread := Memory.read_writeFrom_inside (start := 0) hwf hj
  rwa [Nat.zero_add] at hread

theorem State.received_read_outside (s : State) {bytes : List Byte} {j : Nat} (hj : bytes.length ≤ j) :
    Memory.read (s.received bytes).rxbuf j = Memory.read s.rxbuf j :=
  Memory.read_writeFrom_outside (.inr (by rwa [Nat.zero_add]))

/-- Step 7 of R190; an empty burst is skipped (R75). -/
def burstOps (c : Config) (n : Nat) : List Op := if n = 0 then [] else [.burstRead c.addrFifo n]

/-- The last burst, `n` bytes of data. -/
theorem burstRead_respond {c : Config} {n next : Nat} {d : Word} {data : List Byte} {s : State} (hlen : data.length = n)
    (h : s.env.replies (burstOps c n) = if n = 0 then [] else [.ok data]) :
    (burstRead c.addrFifo n next (.respond .ok d)).run s = (s.received data).completed (burstOps c n) .ok d := by
  unfold burstOps at h ⊢
  by_cases hn : n = 0
  · subst hn
    obtain rfl := List.length_eq_zero_iff.mp hlen
    rw [burstRead_zero, run_respond, State.deliver_eq_completed]
    rfl
  · simp only [if_neg hn] at h ⊢
    rw [burstRead_ok hn (List.cons.inj h).1]
    rfl

/-- A burst that fails, `n` free bytes left in `rxbuf` (R74, U6). -/
theorem burstRead_respond_fails {a : Addr} {n next : Nat} {k : Prog} {s : State} (hn : 0 < n)
    (h : s.env.reply (.burstRead a n) = .fail) :
    ∃ bytes : List Byte, bytes.length = n ∧
      (burstRead a n next k).run s = (s.received bytes).completed [.burstRead a n] .bufReadFailed 0 := by
  refine ⟨(List.range n).map (Config.spoiledByte (s.env.next (.burstRead a n)).count), by simp, ?_⟩
  rw [burstRead_fail (Nat.ne_of_gt hn) h]
  rfl

section
variable {c : Config} {cap : BitVec 32} {v len p : Byte} {s : State} (hrx : rxDone c v = true) (hcrc : crcErrorFlag c v = false)
include hrx hcrc

theorem progReceivePacket_takes (h : s.env.replies (flagOps c v) = [.ok [v], .ok []]) :
    (progReceivePacket c cap).run s = (progTake c cap).run (s.issueAll (flagOps c v)) := by
  rw [progReceivePacket_judges h, progJudge_good hrx hcrc]

theorem progReceivePacket_lengthFails
    (h : s.env.replies (flagOps c v ++ ([.read (lengthRegister c s.radio.headerMode)] : List Op)) = [.ok [v], .ok [], .fail]) :
    (progReceivePacket c cap).run s =
      s.completed (flagOps c v ++ ([.read (lengthRegister c s.radio.headerMode)] : List Op)) .regReadFailed 0 := by
  obtain ⟨hflags, hread⟩ := reply_issueAll (as := [.ok [v], .ok []]) rfl h
  rw [progReceivePacket_takes hrx hcrc hflags, progTake_run, State.issueAll_radio, ← State.completed_issueAll]
  exact regRead_fails hread

theorem progReceivePacket_standbyFails (h : s.env.replies (lengthOps c s.radio.headerMode v) = [.ok [v], .ok [], .ok [len], .fail]) :
    (progReceivePacket c cap).run s = s.completed (lengthOps c s.radio.headerMode v) .regWriteFailed 0 := by
  obtain ⟨hflags, hlength⟩ := replies_issueAll (as := [.ok [v], .ok []]) rfl h
  rw [progReceivePacket_takes hrx hcrc hflags, progTake_run, State.issueAll_radio, lengthOps, ← State.completed_issueAll]
  exact regRead_regWrite_fails hlength

/-- Steps 1 to 4 answered `ok`: the declared mode is `Standby`, and the rest is the copy. -/
theorem progReceivePacket_copies (h : s.env.replies (lengthOps c s.radio.headerMode v) = [.ok [v], .ok [], .ok [len], .ok []]) :
    (progReceivePacket c cap).run s =
      (progCopy c (copyCount len cap)).run ((s.withMode .standby).issueAll (lengthOps c s.radio.headerMode v)) := by
  obtain ⟨hflags, hlength⟩ := replies_issueAll (as := [.ok [v], .ok []]) rfl h
  rw [progReceivePacket_takes hrx hcrc hflags, progTake_run, State.issueAll_radio]
  exact regRead_regWrite_ok hlength

theorem progReceivePacket_cursorReadFails
    (h : s.env.replies (lengthOps c s.radio.headerMode v ++ ([.read c.addrFifoRxCurrent] : List Op)) =
      [.ok [v], .ok [], .ok [len], .ok [], .fail]) :
    (progReceivePacket c cap).run s =
      (s.withMode .standby).completed (lengthOps c s.radio.headerMode v ++ ([.read c.addrFifoRxCurrent] : List Op)) .regReadFailed 0 := by
  obtain ⟨hlength, hread⟩ := reply_issueAll (as := [.ok [v], .ok [], .ok [len], .ok []]) rfl h
  rw [progReceivePacket_copies hrx hcrc hlength, ← State.completed_issueAll]
  exact regRead_fails hread

theorem progReceivePacket_cursorWriteFails
    (h : s.env.replies (cursorOps c s.radio.headerMode v p) = [.ok [v], .ok [], .ok [len], .ok [], .ok [p], .fail]) :
    (progReceivePacket c cap).run s =
      (s.withMode .standby).completed (cursorOps c s.radio.headerMode v p) .regWriteFailed 0 := by
  obtain ⟨hlength, hcursor⟩ := replies_issueAll (as := [.ok [v], .ok [], .ok [len], .ok []]) rfl h
  rw [progReceivePacket_copies hrx hcrc hlength, cursorOps, ← State.completed_issueAll]
  exact regRead_regWrite_fails (f := id) hcursor

/-- Steps 1 to 6 answered `ok`: the rest is the burst. -/
theorem progReceivePacket_bursts
    (h : s.env.replies (cursorOps c s.radio.headerMode v p) = [.ok [v], .ok [], .ok [len], .ok [], .ok [p], .ok []]) :
    (progReceivePacket c cap).run s =
      (burstRead c.addrFifo (copyCount len cap) 7 (.respond .ok (BitVec.ofNat 32 (copyCount len cap)))).run
        ((s.withMode .standby).issueAll (cursorOps c s.radio.headerMode v p)) := by
  obtain ⟨hlength, hcursor⟩ := replies_issueAll (as := [.ok [v], .ok [], .ok [len], .ok []]) rfl h
  rw [progReceivePacket_copies hrx hcrc hlength]
  exact regRead_regWrite_ok (f := id) hcursor

/-- A good packet handed over. -/
theorem progReceivePacket_completes {data : List Byte} {n : Nat} (hn : n = copyCount len cap) (hdata : data.length = n)
    (h : s.env.replies (cursorOps c s.radio.headerMode v p ++ burstOps c n) =
      ([.ok [v], .ok [], .ok [len], .ok [], .ok [p], .ok []] : List Answer) ++ (if n = 0 then [] else [.ok data])) :
    (progReceivePacket c cap).run s = ((s.withMode .standby).received data).completed
      (cursorOps c s.radio.headerMode v p ++ burstOps c n) .ok (BitVec.ofNat 32 n) := by
  obtain ⟨hcursor, hburst⟩ := replies_issueAll rfl h
  rw [progReceivePacket_bursts hrx hcrc hcursor, ← hn, ← State.completed_issueAll, ← State.received_issueAll]
  exact burstRead_respond (s := (s.withMode .standby).issueAll _) hdata hburst

/-- A good packet whose burst fails, `n` bytes of `rxbuf` being free after it. -/
theorem progReceivePacket_burstFails {n : Nat} (hn : n = copyCount len cap) (hpos : 0 < n)
    (h : s.env.replies (cursorOps c s.radio.headerMode v p ++ ([.burstRead c.addrFifo n] : List Op)) =
      [.ok [v], .ok [], .ok [len], .ok [], .ok [p], .ok [], .fail]) :
    ∃ bytes : List Byte, bytes.length = n ∧
      (progReceivePacket c cap).run s = ((s.withMode .standby).received bytes).completed
        (cursorOps c s.radio.headerMode v p ++ ([.burstRead c.addrFifo n] : List Op)) .bufReadFailed 0 := by
  obtain ⟨hcursor, hburst⟩ := reply_issueAll (as := [.ok [v], .ok [], .ok [len], .ok [], .ok [p], .ok []]) rfl h
  obtain ⟨bytes, hlen, hrun⟩ := burstRead_respond_fails
    (s := (s.withMode .standby).issueAll (cursorOps c s.radio.headerMode v p)) hpos hburst
  refine ⟨bytes, hlen, ?_⟩
  rw [progReceivePacket_bursts hrx hcrc hcursor, ← hn, ← State.completed_issueAll, ← State.received_issueAll]
  exact hrun

end

/-- Settles O51: the bytes of the burst are what `rxbuf` holds below the count, and those above it are as they were. -/
theorem receivePacketCopiesPacket : Obligations.ReceivePacketCopiesPacket := by
  rintro cap s v len p data n ops hwf hrx hcrc hn hdata rfl h
  rw [← rxDone_iff] at hrx
  rw [← crcErrorFlag_eq_false_iff] at hcrc
  rw [← lengthRegister_eq] at h ⊢
  refine ⟨_, exec_of_program rfl (progReceivePacket_completes hrx hcrc hn hdata h), State.received_completed _ _ _ _ _, fun j => ?_⟩
  by_cases hj : j < n
  · rw [if_pos hj]
    exact State.received_read_inside (s := s.withMode .standby) hwf (hj.trans_eq hdata.symm)
  · rw [if_neg hj]
    exact State.received_read_outside (s.withMode .standby) (hdata.trans_le (Nat.le_of_not_lt hj))

/-- Settles O52, one failing access after another. -/
theorem receivePacketFailsInSequence : Obligations.ReceivePacketFailsInSequence := by
  rintro cap s v len p n ops hrx hcrc hn rfl
  rw [← rxDone_iff] at hrx
  rw [← crcErrorFlag_eq_false_iff] at hcrc
  rw [← lengthRegister_eq]
  refine ⟨fun h => exec_of_program rfl ?_, fun h => exec_of_program rfl ?_, fun h => exec_of_program rfl ?_,
    fun h => exec_of_program rfl ?_, fun hpos h => ?_⟩
  · exact progReceivePacket_lengthFails hrx hcrc h
  · exact progReceivePacket_standbyFails hrx hcrc h
  · exact progReceivePacket_cursorReadFails hrx hcrc h
  · exact progReceivePacket_cursorWriteFails hrx hcrc h
  · obtain ⟨bytes, hlen, hrun⟩ := progReceivePacket_burstFails hrx hcrc hn hpos h
    exact ⟨_, exec_of_program rfl hrun, State.received_completed _ _ _ _ _,
      fun j hj => State.received_read_outside (s.withMode .standby) (hlen.trans_le hj)⟩

end Sys2Proof.Machine
end

section
/-! PROOFS. `POLL_RECEIVED`, then `RECEIVE_PACKET`, on a plain chip (43_packet_rx R193; 70_reset_and_hazards R266; 20_memory R84; log 12). -/

namespace Sys2Proof.Machine

/-- Two commands on a plain chip, one after the other: the second meets the chip that the first left, and each responds as its pseudocode
does on the chip it meets. -/
theorem responses_of_two_onChip {i j : Instr} {s t u : State} {x : Chip} (ht : exec i s = .next t) (hu : exec j t = .next u)
    (hfollow : (Chip.follow s.config x (newEntries s u)).isSome = true) :
    u.responses = s.responses ++
      [((program s.config i).onChip s.config s.txbuf x s.radio s.seq.pending).2,
        ((program s.config j).onChip s.config t.txbuf ((program s.config i).onChip s.config s.txbuf x s.radio s.seq.pending).1
          t.radio t.seq.pending).2] := by
  rw [exec_eq_run] at ht hu
  cases ht
  cases hu
  obtain ⟨-, -, -, hconfig, -⟩ := Prog.run_frame (program s.config i) s
  rw [hconfig] at hfollow ⊢
  obtain ⟨z, hz⟩ := Option.isSome_iff_exists.mp hfollow
  rw [newEntries_run_run, Chip.follow_append, Option.bind_eq_some_iff] at hz
  obtain ⟨y, hfirst, hsecond⟩ := hz
  obtain ⟨rfl, hresp⟩ := Prog.run_onChip _ hfirst
  obtain ⟨-, hresp'⟩ := Prog.run_onChip _ hsecond
  rw [hresp', hresp, List.append_assoc]
  rfl

/-- R7: the flag masks of receive-done and CRC-error share no bit. -/
theorem Params.irqCrcError_and_irqRxDone {c : Config} (h : Params c) : c.irqCrcError &&& c.irqRxDone = 0 := by
  obtain ⟨-, hrest⟩ := List.pairwise_cons.mp ((pairwiseDisjoint_iff _).mp h.flagMasks)
  rw [BitVec.and_comm]
  exact (List.pairwise_cons.mp hrest).1 _ (List.mem_singleton_self _)

theorem crcErrorFlag_clearCrcError (c : Config) (v : Byte) : crcErrorFlag c (v &&& ~~~c.irqCrcError) = false := by
  rw [crcErrorFlag_eq_false_iff, BitVec.and_assoc, BitVec.and_comm (~~~c.irqCrcError), BitVec.and_not_self]
  exact BitVec.and_zero

section
variable {c : Config} (h : Params c)
include h

/-- Clearing CRC-error alone leaves receive-done as it was. -/
theorem Params.rxDone_clearCrcError (v : Byte) : rxDone c (v &&& ~~~c.irqCrcError) = rxDone c v := by
  rw [← rmwByte_clear, rxDone, flagSet, rmwByte_and_of_disjoint h.irqCrcError_and_irqRxDone]
  rfl

theorem Params.loadByte_irqFlags (x : Chip) : Chip.loadByte c x c.addrIrqFlags = Memory.read x.regs c.addrIrqFlags.toNat :=
  if_neg h.addrIrqFlags_ne

theorem Params.afterLoad_irqFlags (x : Chip) : Chip.afterLoad c x c.addrIrqFlags = x := if_neg h.addrIrqFlags_ne

/-- R84: a flag is cleared by writing 1 to it. -/
theorem Params.loadByte_storeByte_irqFlags {x : Chip} (hx : Memory.wf x.regs = true) (v : Byte) :
    Chip.loadByte c (Chip.storeByte c x c.addrIrqFlags v) c.addrIrqFlags = Chip.loadByte c x c.addrIrqFlags &&& ~~~v := by
  rw [h.loadByte_irqFlags, h.loadByte_irqFlags, Chip.storeByte, if_neg h.addrIrqFlags_ne, if_pos rfl]
  exact Memory.read_write_same hx

/-- Clearing CRC-error alone leaves receive-done on the chip (R193). -/
theorem Params.rxDone_storeByte_crcError {x : Chip} (hx : Memory.wf x.regs = true) :
    rxDone c (Chip.loadByte c (Chip.storeByte c x c.addrIrqFlags c.irqCrcError) c.addrIrqFlags) =
      rxDone c (Chip.loadByte c x c.addrIrqFlags) := by
  rw [h.loadByte_storeByte_irqFlags hx, h.rxDone_clearCrcError]

theorem Params.crcErrorFlag_storeByte_crcError {x : Chip} (hx : Memory.wf x.regs = true) :
    crcErrorFlag c (Chip.loadByte c (Chip.storeByte c x c.addrIrqFlags c.irqCrcError) c.addrIrqFlags) = false := by
  rw [h.loadByte_storeByte_irqFlags hx, crcErrorFlag_clearCrcError]

/-- R193: a corrupt packet is reported, and its CRC-error cleared on the chip. -/
theorem progPollReceived_onChip {x : Chip} (hrx : rxDone c (Chip.loadByte c x c.addrIrqFlags) = true)
    (hcrc : crcErrorFlag c (Chip.loadByte c x c.addrIrqFlags) = true) (tx : Memory) (r : Radio) (p : Status) :
    (progPollReceived c).onChip c tx x r p =
      (Chip.storeByte c x c.addrIrqFlags c.irqCrcError, { status := .ok, data := 3 }) := by
  rw [progPollReceived, regRead_onChip, h.afterLoad_irqFlags, pollData_of_corrupt hrx hcrc, pollCrcError_eq, hrx, hcrc]
  rfl

end

/-- A plain chip never fails a burst. -/
theorem burstRead_onChip_response {c : Config} (a : Addr) (n next : Nat) (st : Status) (d : Word) (tx : Memory) (x : Chip) (r : Radio)
    (p : Status) :
    ((burstRead a n next (.respond st d)).onChip c tx x r p).2 = { status := st, data := d } := by
  unfold burstRead
  split <;> rfl

/-- A chip that shows a good packet hands it over with `OK`. -/
theorem progReceivePacket_onChip {c : Config} {x : Chip} (hrx : rxDone c (Chip.loadByte c x c.addrIrqFlags) = true)
    (hcrc : crcErrorFlag c (Chip.loadByte c x c.addrIrqFlags) = false) (cap : BitVec 32) (tx : Memory) (r : Radio) (p : Status) :
    ∃ n, ((progReceivePacket c cap).onChip c tx x r p).2 = { status := .ok, data := n } := by
  rw [progReceivePacket_eq, regRead_onChip, regWrite_onChip, progJudge_good hrx hcrc]
  exact ⟨_, burstRead_onChip_response _ _ _ _ _ _ _ _ _⟩

/-- Settles O54: the poll clears CRC-error and leaves receive-done, so the chip it leaves shows a good packet. -/
theorem polledCorruptPacketIsReceivedAsGood : Obligations.PolledCorruptPacketIsReceivedAsGood := by
  intro cap s t u x hwf hx hrx hcrc ht hu hfollow
  have h := Params.of hwf
  rw [← h.loadByte_irqFlags, ← rxDone_iff] at hrx
  rw [← h.loadByte_irqFlags, ← crcErrorFlag_iff] at hcrc
  have hgood := (h.rxDone_storeByte_crcError hx).trans hrx
  have hclear := h.crcErrorFlag_storeByte_crcError hx
  obtain ⟨n, hreceived⟩ := progReceivePacket_onChip hgood hclear cap t.txbuf t.radio t.seq.pending
  refine ⟨n, (responses_of_two_onChip ht hu hfollow).trans ?_⟩
  simp only [program, progPollReceived_onChip h hrx hcrc, hreceived]

end Sys2Proof.Machine
end

section
/-! PROOFS. The diagnostics commands (44_diagnostics R201 to R204): the lost-packet counter, packet RSSI and SNR as two's complement words,
and the register dump. -/

namespace Sys2Proof.Machine

/-! ## The lost-packet counter (R201) -/

/-- Settles O55: the pseudocode asks for the counter and responds. -/
theorem packetLostCountAnswersCounter : Obligations.PacketLostCountAnswersCounter :=
  fun _ => exec_of_program rfl respond_completes

/-! ## RSSI and SNR (R202, R203) -/

/-- R202: a read, and the offset of the declared frequency taken off it. -/
theorem packetRssi_readsOne (s : State) :
    ReadsOne .packetRssi s s.config.addrPktRssi fun raw => rssiData raw (rssiOffset s.config s.radio.frequencyHz) := by
  have hexec {t : State} : (progPacketRssi s.config).run s = t → exec .packetRssi s = .next t := exec_of_program rfl
  exact ⟨fun v h => hexec (regRead_completes (List.cons.inj h).1 ((run_ask _ _).trans respond_completes)),
    fun h => hexec (regRead_fails (List.cons.inj h).1)⟩

theorem rssiData_toInt (raw : Byte) (off : Nat) : (rssiData raw off).toInt = ((raw.toNat : Int) - off).bmod (2 ^ 32) :=
  BitVec.toInt_ofInt _

/-- R202: 32 bits hold the difference, the raw byte being within 8 bits. -/
theorem rssiData_toInt_of_le (raw : Byte) {off : Nat} (hoff : off ≤ 2 ^ 31) :
    (rssiData raw off).toInt = (raw.toNat : Int) - off := by
  have hraw : raw.toNat < 2 ^ 8 := raw.isLt
  rw [rssiData_toInt]
  exact Int.bmod_eq_of_le (by omega) (by omega)

/-- R203: sign extension keeps the value. -/
theorem snrData_toInt (raw : Byte) : (snrData raw).toInt = raw.toInt := BitVec.toInt_signExtend_of_le (by decide)

theorem byte_toInt (raw : Byte) : raw.toInt = if raw.toNat < 128 then (raw.toNat : Int) else (raw.toNat : Int) - 256 := by
  rw [BitVec.toInt_eq_toNat_cond, show 2 ^ dataBits = 256 from rfl]
  split <;> split <;> omega

theorem snrDecibels_mul (c : Config) (d : Word) : snrDecibels c d * 2 ^ c.snrFracBits = (d.toInt : Rat) :=
  div_mul_cancel₀ _ (pow_ne_zero _ two_ne_zero)

/-- Settles O56: one read each, and the values of the two words answered. -/
theorem rssiAndSnrArithmetic : Obligations.RssiAndSnrArithmetic := by
  rintro s _ rfl
  refine ⟨_, snrData, packetRssi_readsOne s, readsOne_of_program rfl, fun raw => rssiData_toInt raw _,
    fun raw hoff => rssiData_toInt_of_le raw hoff, fun raw => ?_, fun raw => ?_⟩
  · rw [snrData_toInt, byte_toInt]
  · rw [snrDecibels_mul, snrData_toInt]

/-! ## The register dump (R204) -/

/-- Single reads of `n` addresses, from `i` upwards. -/
def dumpOpsFrom (i n : Nat) : List Op := (List.range' i n).map fun j => .read (BitVec.ofNat addrBits j)

theorem dumpOpsFrom_zero (n : Nat) : dumpOpsFrom 0 n = dumpOps n := by
  rw [dumpOpsFrom, dumpOps, List.range_eq_range']

theorem dumpOpsFrom_succ (i n : Nat) : dumpOpsFrom i (n + 1) = .read (BitVec.ofNat addrBits i) :: dumpOpsFrom (i + 1) n := rfl

theorem dumpOps_length (n : Nat) : (dumpOps n).length = n := by simp [dumpOps]

theorem dumpOps_succ (n : Nat) : dumpOps (n + 1) = dumpOps n ++ [.read (BitVec.ofNat addrBits n)] := by
  simp [dumpOps, List.range_succ]

/-- Bytes stored from `dumpbuf[i]` on. -/
def State.dumped (s : State) (i : Nat) (bytes : List Byte) : State := { s with dumpbuf := Memory.writeFrom s.dumpbuf i bytes }

theorem State.dumped_read {s : State} (hwf : Memory.wf s.dumpbuf = true) (bytes : List Byte) (j : Nat) :
    Memory.read (s.dumped 0 bytes).dumpbuf j = if j < bytes.length then bytes.getD j 0 else Memory.read s.dumpbuf j := by
  split
  · next hj =>
    have hread := Memory.read_writeFrom_inside (start := 0) hwf hj
    rwa [Nat.zero_add] at hread
  · next hj => exact Memory.read_writeFrom_outside (.inr (by omega))

section
variable {c : Config} {bytes : List Byte} {s : State}

/-- As long as the reads answer `ok` the loop goes on, their bytes in `dumpbuf`. -/
theorem progDumpFrom_reads {i : Nat} (m : Nat)
    (h : s.env.replies (dumpOpsFrom i bytes.length) = bytes.map fun v => .ok [v]) :
    (progDumpFrom c i (m + bytes.length)).run s =
      (progDumpFrom c (i + bytes.length) m).run ((s.dumped i bytes).issueAll (dumpOpsFrom i bytes.length)) := by
  induction bytes generalizing i s with
  | nil => rfl
  | cons v rest ih =>
    rw [List.length_cons, dumpOpsFrom_succ] at h ⊢
    obtain ⟨hread, hrest⟩ := List.cons.inj h
    rw [← Nat.add_assoc, progDumpFrom, regReadElse_ok hread, run_update]
    rw [ih (s := (s.transact (.read (BitVec.ofNat addrBits i))).apply (.storeDump i v)) hrest, Nat.add_right_comm]
    rfl

/-- The dump after its first reads, all answered `ok`. -/
theorem progDumpRegisters_reads {m : Nat} (hm : c.dumpCount = m + bytes.length)
    (h : s.env.replies (dumpOps bytes.length) = bytes.map fun v => .ok [v]) :
    (progDumpRegisters c).run s =
      (progDumpFrom c bytes.length m).run ((s.dumped 0 bytes).issueAll (dumpOps bytes.length)) := by
  rw [← dumpOpsFrom_zero] at h ⊢
  rw [progDumpRegisters, hm, progDumpFrom_reads m h, Nat.zero_add]

/-- Every read answered `ok`. -/
theorem progDumpRegisters_completes (hlen : bytes.length = c.dumpCount)
    (h : s.env.replies (dumpOps c.dumpCount) = bytes.map fun v => .ok [v]) :
    (progDumpRegisters c).run s =
      (s.dumped 0 bytes).completed (dumpOps c.dumpCount) .ok (BitVec.ofNat 32 c.dumpCount) := by
  rw [← hlen] at h
  rw [progDumpRegisters_reads (m := 0) (by omega) h, progDumpFrom, run_respond, State.issueAll_deliver, hlen]

/-- The read after `bytes` fails. -/
theorem progDumpRegisters_fails (hlt : bytes.length < c.dumpCount)
    (h : s.env.replies (dumpOps (bytes.length + 1)) = bytes.map (fun v => .ok [v]) ++ [.fail]) :
    (progDumpRegisters c).run s =
      (s.dumped 0 bytes).completed (dumpOps (bytes.length + 1)) .regReadFailed (BitVec.ofNat 32 bytes.length) := by
  obtain ⟨m, hm⟩ := Nat.exists_eq_add_of_le' (Nat.succ_le_of_lt hlt)
  rw [dumpOps_succ] at h ⊢
  obtain ⟨hok, hfail⟩ := reply_issueAll (s := s.dumped 0 bytes) (by rw [List.length_map, dumpOps_length]) h
  rw [progDumpRegisters_reads (s := s) (m := m + 1) (by omega) hok, progDumpFrom, regReadElse_fail hfail, raiseWith, run_respond,
    State.deliver_eq_completed, State.completed_transact, State.completed_issueAll]

end

/-- A dump that stores `bytes` and completes leaves every other byte of `dumpbuf`, and all else of the completed state, as it is. -/
theorem exec_dumpRegisters_of_run {s : State} {bytes : List Byte} {ops : List Op} {st : Status} {d : Word}
    (hwf : Memory.wf s.dumpbuf = true) (hrun : (progDumpRegisters s.config).run s = (s.dumped 0 bytes).completed ops st d) :
    ∃ t, exec .dumpRegisters s = .next t ∧ t = { s.completed ops st d with dumpbuf := t.dumpbuf } ∧
      ∀ j, Memory.read t.dumpbuf j = if j < bytes.length then bytes.getD j 0 else Memory.read s.dumpbuf j :=
  ⟨_, exec_of_program rfl hrun, rfl, State.dumped_read hwf bytes⟩

/-- Settles O57: the loop up to its end, or up to its first failed read. -/
theorem dumpRegistersListsAddresses : Obligations.DumpRegistersListsAddresses := by
  intro s bytes hwf
  exact ⟨fun hlen h => exec_dumpRegisters_of_run hwf (progDumpRegisters_completes hlen h),
    fun hlt h => exec_dumpRegisters_of_run hwf (progDumpRegisters_fails hlt h)⟩

end Sys2Proof.Machine
end

section
/-! PROOFS. `DRIVER_INIT` as a sequence of transactions (45_init_close R210 to R212): the bus, the exits of the version loop, the tail. -/

namespace Sys2Proof.Machine

/-! ## Register accesses with nothing between them -/

/-- The pseudocode issues the operations `ops`, single reads and writes with no update between them, and, answered `as`, goes on as `q`; it
raises the status of R71 or R72 at any of them that fails. -/
inductive Prog.Accesses : Prog → List Op → List Answer → Prog → Prop
  | done (q : Prog) : Prog.Accesses q [] [] q
  | write {k q : Prog} {ops : List Op} {as : List Answer} (a : Addr) (v : Byte) (hk : k.Accesses ops as q) :
      Prog.Accesses (regWrite a v k) (.write a v :: ops) (.ok [] :: as) q
  | read {k : Byte → Prog} {q : Prog} {ops : List Op} {as : List Answer} (a : Addr) (b : Byte) (hk : (k b).Accesses ops as q) :
      Prog.Accesses (regRead a k) (.read a :: ops) (.ok [b] :: as) q

section
variable {p q : Prog} {ops : List Op} {as : List Answer} {s : State}

theorem Prog.Accesses.run (hp : p.Accesses ops as q) (h : s.env.replies ops = as) : p.run s = q.run (s.issueAll ops) := by
  induction hp generalizing s with
  | done q => rfl
  | write a v hk ih =>
    obtain ⟨hwrite, hrest⟩ := List.cons.inj h
    exact (regWriteElse_ok hwrite).trans (ih hrest)
  | read a b hk ih =>
    obtain ⟨hread, hrest⟩ := List.cons.inj h
    exact (regReadElse_ok hread).trans (ih hrest)

/-- The first access that fails is the last, and decides the status (R222, R223). -/
theorem Prog.Accesses.fails {n : Nat} {st : Status} (hp : p.Accesses ops as q) (hst : ops[n]?.bind Op.failureStatus = some st)
    (h : s.env.replies (ops.take (n + 1)) = as.take n ++ [.fail]) : p.run s = s.completed (ops.take (n + 1)) st 0 := by
  induction hp generalizing s n with
  | done q => cases hst
  | write a v hk ih =>
    cases n with
    | zero => cases hst; exact regWrite_fails (List.cons.inj h).1
    | succ n => exact regWrite_completes (List.cons.inj h).1 (ih hst (List.cons.inj h).2)
  | read a b hk ih =>
    cases n with
    | zero => cases hst; exact regRead_fails (List.cons.inj h).1
    | succ n => exact regRead_completes (List.cons.inj h).1 (ih hst (List.cons.inj h).2)

end

/-! ## The tail (R212) -/

section
variable {c : Config} {lna : Byte} {s : State}

/-- The tail after its first write. -/
def progAfterSleep (c : Config) : Prog :=
  regWrite c.addrFifoRxBase 0x00 <|
  regWrite c.addrFifoTxBase 0x00 <|
  rmw c.addrLna c.lnaBoostMask c.lnaBoostMask <|
  regWrite c.addrModemConfig3 c.mc3AgcAuto <|
  setMode c .standby <|
  .respond .ok 0

/-- The six transactions after the first write of the tail; only after the last one is RadioState updated. -/
theorem progAfterSleep_accesses (c : Config) (lna : Byte) :
    (progAfterSleep c).Accesses (tailOps c lna).tail (([.ok [], .ok [], .ok [lna], .ok [], .ok []] : List Answer) ++ [.ok []])
      (.update (.setMode .standby) (.respond .ok 0)) := by
  rw [tailOps, ← rmwByte_set]
  exact .write _ _ <| .write _ _ <| .read _ _ <| .write _ _ <| .write _ _ <| .write _ _ <| .done _

/-- The tail, without the sequencer's step. -/
theorem progInitTail_run (c : Config) (s : State) : (progInitTail c).run s = (setMode c .sleep (progAfterSleep c)).run s :=
  Prog.run_withSeq _ (q := { s.seq with step := 3 }) rfl

theorem progInitTail_sleeps (h : s.env.reply (.write c.addrOpMode (modeByte c .sleep)) = .ok []) :
    (progInitTail c).run s =
      (progAfterSleep c).run ((s.withMode .sleep).transact (.write c.addrOpMode (modeByte c .sleep))) :=
  (progInitTail_run c s).trans (regWriteElse_ok h)

theorem progInitTail_sleepFails (h : s.env.reply (.write c.addrOpMode (modeByte c .sleep)) = .fail) :
    (progInitTail c).run s = s.completed [.write c.addrOpMode (modeByte c .sleep)] .regWriteFailed 0 :=
  (progInitTail_run c s).trans (regWrite_fails h)

/-- All seven transactions answered `ok`. -/
theorem progInitTail_completes
    (h : s.env.replies (tailOps c lna) = [.ok [], .ok [], .ok [], .ok [lna], .ok [], .ok [], .ok []]) :
    (progInitTail c).run s = (s.withMode .standby).completed (tailOps c lna) .ok 0 := by
  obtain ⟨hsleep, hrest⟩ := List.cons.inj h
  rw [progInitTail_sleeps hsleep, (progAfterSleep_accesses c lna).run hrest, run_update, run_respond, State.setMode_eq,
    State.withMode_issueAll, State.issueAll_deliver, State.withMode_transact, State.completed_transact]
  rfl

/-- Transaction 3 of the tail, the read of `LNA`, is the only read among those after the first write. -/
theorem tailOps_failureStatus (c : Config) (lna : Byte) {n : Nat} (hn : n < 6) :
    (tailOps c lna).tail[n]?.bind Op.failureStatus = some (if n + 1 = 3 then .regReadFailed else .regWriteFailed) := by
  interval_cases n <;> rfl

/-- A failure at transaction `k`. -/
theorem progInitTail_fails {k : Nat} (hk : k < 7)
    (h : s.env.replies ((tailOps c lna).take (k + 1)) =
      ([.ok [], .ok [], .ok [], .ok [lna], .ok [], .ok []] : List Answer).take k ++ [.fail]) :
    (progInitTail c).run s = (if k = 0 then s else s.withMode .sleep).completed ((tailOps c lna).take (k + 1))
      (if k = 3 then .regReadFailed else .regWriteFailed) 0 := by
  cases k with
  | zero => exact progInitTail_sleepFails (List.cons.inj h).1
  | succ n =>
    have hn : n < 6 := Nat.lt_of_succ_lt_succ hk
    obtain ⟨hsleep, hrest⟩ := List.cons.inj h
    have hfails := (progAfterSleep_accesses c lna).fails
      (s := (s.withMode .sleep).transact (.write c.addrOpMode (modeByte c .sleep))) (tailOps_failureStatus c lna hn)
    rw [List.take_append_of_le_length (Nat.le_of_lt_succ hn)] at hfails
    rw [progInitTail_sleeps hsleep, hfails hrest, State.completed_transact]
    rfl

end

/-! ## The version loop (R211) -/

section
variable {c : Config} {s : State} {v : Byte} {n : Nat}

/-- One iteration, without the sequencer's counters. -/
theorem progPollVersion_succ (c : Config) (n : Nat) (s : State) :
    (progPollVersion c (n + 1)).run s =
      (regRead c.addrVersion fun v =>
        if v = c.versionId then progInitTail c else delay c.retryDelayMs (progPollVersion c n)).run s :=
  Prog.run_withSeq _ (q := { s.seq with step := 1, iter := s.seq.iter + 1 }) rfl

/-- Another version read: one read, one delay, and the loop goes on. -/
theorem progPollVersion_again (hread : s.env.reply (.read c.addrVersion) = .ok [v]) (hv : v ≠ c.versionId) :
    (progPollVersion c (n + 1)).run s = (progPollVersion c n).run (s.issueAll (versionRounds c 1)) := by
  rw [progPollVersion_succ, regRead, regReadElse_ok hread, if_neg hv]
  rfl

/-- Rounds in which another version is read, one for each byte read, with `n` iterations left after them. -/
theorem progPollVersion_rounds {vs : List Byte} (h : s.env.replies (versionRounds c vs.length) = roundAnswers vs)
    (hvs : ∀ x ∈ vs, x ≠ c.versionId) :
    (progPollVersion c (vs.length + n)).run s = (progPollVersion c n).run (s.issueAll (versionRounds c vs.length)) := by
  induction vs generalizing s with
  | nil => rw [List.length_nil, Nat.zero_add]; rfl
  | cons v vs ih =>
    obtain ⟨hread, hrest⟩ := List.cons.inj h
    rw [List.length_cons, Nat.add_right_comm, progPollVersion_again hread (hvs v List.mem_cons_self),
      ih (List.cons.inj hrest).2 fun x hx => hvs x (List.mem_cons_of_mem v hx)]
    rfl

/-- The first exit: the version matches. -/
theorem progPollVersion_matches (h : s.env.reply (.read c.addrVersion) = .ok [c.versionId]) :
    (progPollVersion c (n + 1)).run s = (progInitTail c).run (s.transact (.read c.addrVersion)) := by
  rw [progPollVersion_succ, regRead, regReadElse_ok h, if_pos rfl]

/-- The second exit: a failed read (D27). -/
theorem progPollVersion_readFails (h : s.env.reply (.read c.addrVersion) = .fail) :
    (progPollVersion c (n + 1)).run s = s.completed [.read c.addrVersion] .regReadFailed 0 :=
  (progPollVersion_succ c n s).trans (regRead_fails h)

/-- The third exit: the budget is used up. -/
theorem progPollVersion_exhausted (c : Config) (s : State) : (progPollVersion c 0).run s = s.completed [] .initTimeout 0 :=
  respond_completes

end

/-! ## The command up to the loop's exit -/

section
variable {c : Config} {s : State} {vs : List Byte} {n : Nat} {ops : List Op} {as : List Answer}

theorem progDriverInit_busFails (h : s.env.reply .busInit = .fail) :
    (progDriverInit c).run s = s.completed [.busInit] .busInitFailed 0 := by
  rw [progDriverInit, busInit_fail h, State.deliver_eq_completed, State.completed_transact]

/-- The bus, and the rounds of a version loop whose first `n` reads find another version (R210, R211). -/
def searchOps (c : Config) (n : Nat) : List Op := [.busInit] ++ versionRounds c n

/-- The bus initialized, and another version read as many times as `vs` has bytes, `n` iterations being left (R210, R211). -/
theorem progDriverInit_searched (hbudget : c.retryBudget = vs.length + n) (hvs : ∀ x ∈ vs, x ≠ c.versionId)
    (h : s.env.replies (searchOps c vs.length ++ ops) = ([.ok []] : List Answer) ++ roundAnswers vs ++ as) :
    (progDriverInit c).run s = (progPollVersion c n).run (s.issueAll (searchOps c vs.length)) ∧
      (s.issueAll (searchOps c vs.length)).env.replies ops = as := by
  obtain ⟨hsearch, hrest⟩ := replies_issueAll (by simp [searchOps, roundAnswers_length, versionRounds_length]) h
  obtain ⟨hbus, hrounds⟩ := List.cons.inj hsearch
  refine ⟨?_, hrest⟩
  rw [progDriverInit, busInit_ok hbus, hbudget, progPollVersion_rounds hrounds hvs]
  rfl

/-- The version matches at the read after `vs`: the tail is run, and the rest of the answers are to its operations (R211, R212). -/
theorem progDriverInit_found (hlt : vs.length < c.retryBudget) (hvs : ∀ x ∈ vs, x ≠ c.versionId)
    (h : s.env.replies (searchOps c vs.length ++ [.read c.addrVersion] ++ ops) =
      ([.ok []] : List Answer) ++ roundAnswers vs ++ [.ok [c.versionId]] ++ as) :
    (progDriverInit c).run s = (progInitTail c).run (s.issueAll (searchOps c vs.length ++ [.read c.addrVersion])) ∧
      (s.issueAll (searchOps c vs.length ++ [.read c.addrVersion])).env.replies ops = as := by
  obtain ⟨n, hn⟩ := Nat.exists_eq_add_of_lt hlt
  rw [List.append_assoc, List.append_assoc _ _ as] at h
  obtain ⟨hrun, hexit⟩ := progDriverInit_searched (n := n + 1) hn hvs h
  obtain ⟨hread, hrest⟩ := List.cons.inj hexit
  rw [hrun, progPollVersion_matches hread, State.issueAll_append]
  exact ⟨rfl, hrest⟩

end

/-- Settles O58: the loop's first exit, then the whole tail. -/
theorem driverInitFindsChip : Obligations.DriverInitFindsChip := by
  rintro s vs lna ops hlt hvs rfl h
  obtain ⟨hrun, htail⟩ := progDriverInit_found hlt hvs h
  refine exec_of_program rfl (hrun.trans ((progInitTail_completes htail).trans ?_))
  rw [State.withMode_issueAll, State.completed_issueAll]
  rfl

/-- Settles O59: the bus, then the loop's second and third exit. -/
theorem driverInitGivesUp : Obligations.DriverInitGivesUp := by
  intro s vs hvs
  refine ⟨fun h => exec_of_program rfl ?_, fun hlt h => exec_of_program rfl ?_, fun hbudget h => exec_of_program rfl ?_⟩
  · exact progDriverInit_busFails (List.cons.inj h).1
  · obtain ⟨n, hn⟩ := Nat.exists_eq_add_of_lt hlt
    obtain ⟨hrun, hexit⟩ := progDriverInit_searched (n := n + 1) hn hvs h
    refine hrun.trans ((progPollVersion_readFails (List.cons.inj hexit).1).trans ?_)
    rw [State.completed_issueAll]
    rfl
  · rw [← List.append_nil (_ ++ versionRounds _ _), ← List.append_nil (_ ++ roundAnswers _)] at h
    obtain ⟨hrun, -⟩ := progDriverInit_searched (n := 0) hbudget.symm hvs h
    refine hrun.trans ((progPollVersion_exhausted _ _).trans ?_)
    rw [State.completed_issueAll, List.append_nil]
    rfl

/-- Settles O60: the loop's first exit, then the tail up to its first failure. -/
theorem driverInitTailFails : Obligations.DriverInitTailFails := by
  rintro s vs lna k ops hlt hvs hk rfl h
  rw [List.append_assoc _ (List.take _ _)] at h
  obtain ⟨hrun, htail⟩ := progDriverInit_found hlt hvs h
  refine exec_of_program rfl (hrun.trans ((progInitTail_fails hk htail).trans ?_))
  rw [State.withMode_issueAll, ← apply_ite (State.issueAll · _), State.completed_issueAll]
  rfl

end Sys2Proof.Machine
end

section
/-! PROOFS. Exceptions (60_exceptions R220 to R226): nothing stops the RCE, a command ends with a status of its row of the table, and the
three places that write the interrupt flags. -/

namespace Sys2Proof.Machine

/-! ## A next state from every state -/

/-- Every move of the host is made: it is a command's run or a change of the state at once. -/
theorem hostMove_next (s : State) : ∃ t, hostMove s = .next t := by
  unfold hostMove
  split
  · exact ⟨_, rfl⟩
  · exact ⟨_, runWord_eq_run _ _⟩
  · exact ⟨_, rfl⟩
  · exact ⟨_, rfl⟩
  · exact ⟨_, rfl⟩

/-- Settles O12: with good parameters a busy RCE finishes its command and an idle one takes the host's move; with others the step is refused
at once. -/
theorem stepStopsOnlyOnBadParameters : Obligations.StepStopsOnlyOnBadParameters := by
  intro s
  refine ⟨fun hwf => ?_, fun hwf => by rw [step, hwf, if_neg Bool.false_ne_true]⟩
  cases hb : s.seq.busy with
  | true => exact ⟨_, step_of_busy hwf hb⟩
  | false =>
    obtain ⟨t, ht⟩ := hostMove_next s
    exact ⟨t, (step_of_idle hwf hb).trans ht⟩

/-! ## The status table -/

/-- D17: no row of the table has `BUF_WRITE_FAILED`. -/
theorem not_mayRespond_bufWriteFailed (i : Instr) : ¬ MayRespond i .bufWriteFailed := by
  cases i <;> simp [MayRespond, mayReturn]

/-- R223: the response carries `OK` or a status that the table gives the command. -/
def EndsInRow (i : Instr) (_ : List Entry) (_ : Radio) (resp : Response) : Prop := MayRespond i resp.status

section
variable {c : Config} {tx : Memory} {len : Byte} {es : List Entry} {r : Radio} {p : Status}

/-- The cleanup of `SEND_PACKET` keeps a pending status of its row, or turns `OK` into `REG_WRITE_FAILED`, of its row too (R184). -/
theorem progCleanup_mayRespond (hp : MayRespond (.sendPacket len) p) : (progCleanup c).wp tx (EndsInRow (.sendPacket len)) es r p := by
  have hfailed {p : Status} (hp : MayRespond (.sendPacket len) p) :
      MayRespond (.sendPacket len) (if p = .ok then .regWriteFailed else p) := by
    split
    · simp [MayRespond, mayReturn]
    · exact hp
  have hirq {es : List Entry} {r : Radio} {p : Status} (hp : MayRespond (.sendPacket len) p) :
      (cleanupWrite c.addrIrqFlags c.irqTxDone id .respondPending).wp tx (EndsInRow (.sendPacket len)) es r p :=
    cleanupWrite_wp (respondPending_wp hp) (respondPending_wp (hfailed hp))
  exact update_wp (cleanupWrite_wp (update_wp (hirq hp)) (hirq (hfailed hp)))

/-- Each exit of the poll loop leaves a status of the row pending: `OK`, `REG_READ_FAILED` or `SEND_TIMEOUT` (R182, R183). -/
theorem progPollTxDone_mayRespond (n : Nat) : (progPollTxDone c n).wp tx (EndsInRow (.sendPacket len)) es r .sendTimeout :=
  progPollTxDone_wp c (fun _ _ => True) n trivial (fun _ _ _ _ _ => trivial)
    (fun _ _ _ _ _ => progCleanup_mayRespond (by simp [MayRespond]))
    (fun _ _ _ => progCleanup_mayRespond (by simp [MayRespond, mayReturn]))
    fun _ _ => progCleanup_mayRespond (by simp [MayRespond, mayReturn])

/-- An arming that fails ends in `FAILURE`, the burst write included; one that succeeds goes on to the poll loop (R180, R181). -/
theorem progSendPacket_mayRespond : (progSendPacket c len).wp tx (EndsInRow (.sendPacket len)) es r p := by
  have habort {es : List Entry} {r : Radio} {p : Status} : (raise .failure).wp tx (EndsInRow (.sendPacket len)) es r p :=
    raise_wp (by simp [EndsInRow, MayRespond, mayReturn])
  have htail {es : List Entry} {r : Radio} {p : Status} :
      (regWriteElse (raise .failure) c.addrPayloadLength len <| setModeElse (raise .failure) c .transmit <|
        .update (.setPending .sendTimeout) <| progPollTxDone c c.pollCap).wp tx (EndsInRow (.sendPacket len)) es r p :=
    regWriteElse_wp (regWriteElse_wp (update_wp (update_wp (progPollTxDone_mayRespond c.pollCap))) habort) habort
  exact regWriteElse_wp
    (update_wp (regWriteElse_wp (burstWriteElse_wp (fun _ => htail) (fun _ => htail) fun _ => habort) habort)) habort

end

/-- R223 for every command: `SEND_PACKET` by its arming, poll loop and cleanup, every other by the statuses in its pseudocode. -/
theorem exec_mayRespond {i : Instr} {s t : State} {r : Response} (he : exec i s = .next t)
    (hr : t.responses = s.responses ++ [r]) : MayRespond i r.status := by
  by_cases hi : ∃ len, i = .sendPacket len
  · obtain ⟨len, rfl⟩ := hi
    obtain ⟨r', -, hr', hst⟩ := exec_wp he progSendPacket_mayRespond
    obtain rfl : r' = r := by simpa [hr'] using hr
    exact hst
  · rw [exec_eq_run] at he
    cases he
    obtain ⟨r', hr', hst⟩ := (program_respondsIn s.config fun len h => hi ⟨len, h⟩).run s
    obtain rfl : r' = r := by simpa [hr'] using hr
    exact hst

/-- Settles O25: a status of the command's row, and no row has `BUF_WRITE_FAILED`. -/
theorem statusesFollowTheTable : Obligations.StatusesFollowTheTable := by
  intro i s t r he hr
  have hst := exec_mayRespond he hr
  exact ⟨hst, fun h => not_mayRespond_bufWriteFailed i (h ▸ hst)⟩

/-! ## The writes of the interrupt flags -/

/-- A single write that the operation makes to the interrupt flags writes a value that meets `V`. -/
def Op.IrqWriteMeets (c : Config) (V : Byte → Prop) : Op → Prop
  | .write a v => a = c.addrIrqFlags → V v
  | .busInit | .read _ | .burstWrite _ _ | .burstRead _ _ | .delay _ => True

/-- The pseudocode writes to the interrupt flags only values that meet `V`. -/
abbrev Prog.IrqWritesMeet (c : Config) (V : Byte → Prop) (p : Prog) : Prop := p.Only (Op.IrqWriteMeets c V) fun _ => True

/-- The writes of the interrupt flags in the trace are those of the pseudocode. -/
theorem Prog.IrqWritesMeet.irqWrite {c : Config} {V : Byte → Prop} {p : Prog} (hp : p.IrqWritesMeet c V) (s : State) {v : Byte}
    {ans : Answer} (hmem : { txn := .write c.addrIrqFlags v, answer := ans } ∈ newEntries s (p.run s)) : V v := by
  have hgrown : TraceGrownBy (fun e => ∀ v, e.txn = .write c.addrIrqFlags v → V v) s (p.run s) := by
    refine hp.run (fun u op hop h => h.transact fun v hv => ?_) (fun _ _ _ h => h) (fun _ _ _ h => h) (.refl _ s)
    cases op with
    | write a w => obtain ⟨ha, rfl⟩ := Txn.write.inj hv; exact hop ha
    | _ => cases hv
  exact hgrown.newEntries _ hmem v rfl

/-- `IRQ_FLAGS` stands at place 11 of the table, and the addresses of the table differ (R7). -/
theorem Params.ne_addrIrqFlags {c : Config} (h : Params c) {a : Addr} (ha : a ∈ c.namedAddresses.eraseIdx 11) : a ≠ c.addrIrqFlags := by
  obtain ⟨i, hi, hne, rfl⟩ := List.mem_eraseIdx_iff_getElem.mp ha
  exact h.ne hi (show 11 < 27 by decide) hne

section
variable {c : Config} (h : Params c)
include h

/-- A pin's register is not `IRQ_FLAGS`. -/
theorem Params.dioAddr_ne_addrIrqFlags (pin : Byte) : dioAddr c pin ≠ c.addrIrqFlags := by
  unfold dioAddr
  split <;> exact h.ne_addrIrqFlags (by simp [Config.namedAddresses])

/-- `SEND_PACKET` writes `IRQ_TX_DONE` to the interrupt flags, in its cleanup (R184). -/
theorem progSendPacket_irqWritesMeet (len : Byte) : (progSendPacket c len).IrqWritesMeet c (· = c.irqTxDone) := by
  have hcleanup : (progCleanup c).IrqWritesMeet c (· = c.irqTxDone) := by
    simp [progCleanup, Op.IrqWriteMeets, Config.namedAddresses, h.ne_addrIrqFlags]
  have hpoll (n : Nat) : (progPollTxDone c n).IrqWritesMeet c (· = c.irqTxDone) := by
    induction n with
    | zero => simpa [progPollTxDone] using hcleanup
    | succ n ih => simp [progPollTxDone, Op.IrqWriteMeets, hcleanup, ih]
  simp [progSendPacket, Op.IrqWriteMeets, Config.namedAddresses, hpoll, h.ne_addrIrqFlags]

/-- After its two accesses to the interrupt flags `RECEIVE_PACKET` writes them no more (R190). -/
theorem progJudge_irqWritesMeet (V : Byte → Prop) (cap : BitVec 32) (v : Byte) : (progJudge c cap v).IrqWritesMeet c V := by
  simp [progJudge, progTake, progCopy, Op.IrqWriteMeets, Config.namedAddresses, h.ne_addrIrqFlags]

/-- Polling the version register and the tail of `DRIVER_INIT` write other registers (R211, R212). -/
theorem progPollVersion_irqWritesMeet (n : Nat) : (progPollVersion c n).IrqWritesMeet c fun _ => False := by
  induction n with
  | zero => trivial
  | succ n ih => simp [progPollVersion, progInitTail, Op.IrqWriteMeets, Config.namedAddresses, h.ne_addrIrqFlags, ih]

end

theorem progDumpFrom_irqWritesMeet (c : Config) (j n : Nat) : (progDumpFrom c j n).IrqWritesMeet c fun _ => False := by
  induction n generalizing j with
  | zero => trivial
  | succ n ih => simp [progDumpFrom, Op.IrqWriteMeets, ih]

/-- The commands outside R226 write other registers, or none. -/
theorem program_irqWritesMeet {c : Config} (h : Params c) {i : Instr} (hsend : ∀ n, i ≠ .sendPacket n)
    (hreceive : ∀ n, i ≠ .receivePacket n) (hpoll : i ≠ .pollReceived) : (program c i).IrqWritesMeet c fun _ => False := by
  cases i with
  | sendPacket len => exact absurd rfl (hsend len)
  | receivePacket cap => exact absurd rfl (hreceive cap)
  | pollReceived => exact absurd rfl hpoll
  | driverInit => simp [program, progDriverInit, Op.IrqWriteMeets, progPollVersion_irqWritesMeet h]
  | dumpRegisters => exact progDumpFrom_irqWritesMeet c 0 c.dumpCount
  | close | modeSleep | modeStandby | modeReceive | modeTransmit =>
    simp [program, progClose, progMode, Op.IrqWriteMeets, Config.namedAddresses, h.ne_addrIrqFlags]
  | setFrequency _ | setSpreadingFactor _ | setPreambleLength _ | setSyncWord _ | setTxPower _ =>
    simp [program, progSetFrequency, progSetSpreadingFactor, progSetPreambleLength, progSetSyncWord, progSetTxPower, Op.IrqWriteMeets,
      Config.namedAddresses, h.ne_addrIrqFlags]
  | setBandwidth _ | setCodingRate _ | setCrc _ =>
    simp [program, progSetBandwidth, progSetCodingRate, progSetCrc, Op.IrqWriteMeets, Config.namedAddresses, h.ne_addrIrqFlags]
  | setDioMapping _ _ => simp [program, progSetDioMapping, Op.IrqWriteMeets, h.dioAddr_ne_addrIrqFlags]
  | setExplicitHeader | setImplicitHeader _ =>
    simp [program, progSetExplicitHeader, progSetImplicitHeader, Op.IrqWriteMeets, Config.namedAddresses, h.ne_addrIrqFlags]
  | getFrequency | getPreambleLength | getBandwidth | getDioMapping _ =>
    simp [program, progGetFrequency, progGetPreambleLength, progGetBandwidth, progGetDioMapping, Op.IrqWriteMeets]
  | getSpreadingFactor | getCodingRate | getSyncWord | getCrc | getTxPower =>
    simp [program, progGetSpreadingFactor, progGetCodingRate, progGetSyncWord, progGetCrc, progGetTxPower, Op.IrqWriteMeets]
  | getIrqFlags | packetLostCount | packetRssi | packetSnr =>
    simp [program, progGetIrqFlags, progPacketLostCount, progPacketRssi, progPacketSnr, Op.IrqWriteMeets]

/-- `POLL_RECEIVED` writes `IRQ_CRC_ERROR` to the interrupt flags (R192). -/
theorem progPollReceived_irqWritesMeet (c : Config) : (progPollReceived c).IrqWritesMeet c (· = c.irqCrcError) := by
  simp [progPollReceived, Op.IrqWriteMeets]

/-- `RECEIVE_PACKET` begins with the read of the flags; the byte read is the only one written to them, and where the read fails nothing is
written (R190). -/
theorem progReceivePacket_irqWrite {c : Config} (h : Params c) (cap : BitVec 32) (s : State) {v : Byte} {ans : Answer}
    (hmem : { txn := .write c.addrIrqFlags v, answer := ans } ∈ newEntries s ((progReceivePacket c cap).run s)) :
    (newEntries s ((progReceivePacket c cap).run s)).head? = some { txn := .read c.addrIrqFlags, answer := .ok [v] } := by
  rw [progReceivePacket_eq] at hmem ⊢
  rcases regRead_run c.addrIrqFlags (fun b => regWrite c.addrIrqFlags b (progJudge c cap b)) s with ⟨b, hread, hrun⟩ | ⟨-, hrun⟩
  · have hwrites : (regWrite c.addrIrqFlags b (progJudge c cap b)).IrqWritesMeet c (· = b) := by
      simp [Op.IrqWriteMeets, progJudge_irqWritesMeet h]
    rw [hrun, newEntries_run_transact] at hmem ⊢
    obtain hhead | htail := List.mem_cons.mp hmem
    · cases hhead
    · obtain rfl := hwrites.irqWrite _ htail
      rw [hread]
      rfl
  · rw [hrun, ← raise_run, newEntries_run_transact] at hmem
    simp [newEntries, raise_run, Op.onPort] at hmem

/-- Settles O24: the three commands by their pseudocode, and every other writes no interrupt flags. -/
theorem irqFlagsWrittenInThreePlaces : Obligations.IrqFlagsWrittenInThreePlaces := by
  intro i s t v ans hwf he hmem
  have h := Params.of hwf
  rw [exec_eq_run] at he
  cases he
  cases i with
  | sendPacket len => exact .inl ⟨⟨len, rfl⟩, (progSendPacket_irqWritesMeet h len).irqWrite s hmem⟩
  | pollReceived => exact .inr (.inl ⟨rfl, (progPollReceived_irqWritesMeet s.config).irqWrite s hmem⟩)
  | receivePacket cap => exact .inr (.inr ⟨⟨cap, rfl⟩, progReceivePacket_irqWrite h cap s hmem⟩)
  | _ => exact ((program_irqWritesMeet h (by simp) (by simp) (by simp)).irqWrite s hmem).elim

end Sys2Proof.Machine
end

section
/-! PROOFS. Reset in mid-command, waiting, and loading the payload (70_reset_and_hazards R250, R251; 10_state R28): what the RCE has issued
and answered when it has made only some steps of a command. -/

namespace Sys2Proof.Machine

/-! ## The host's moves -/

theorem hostMove_nil {s : State} (h : s.inputs = []) : hostMove s = .next s := by
  simp only [hostMove, h]

theorem hostMove_loadTx {s : State} {data : List Byte} {rest : List Input} (h : s.inputs = .loadTx data :: rest) :
    hostMove s = .next (s.popInput.loadTx data) := by
  simp only [hostMove, h]

theorem hostMove_interrupted {s : State} {w : Cmd48} {n : Nat} {rest : List Input} (h : s.inputs = .interrupted w n :: rest) :
    hostMove s = .next (s.popInput.interruptedCommand w n) := by
  simp only [hostMove, h]

/-! ## Waiting and loading -/

/-- A payload that fits `txbuf` is there in full, and the bytes behind it are as before (R28). -/
theorem State.loadTx_read {s : State} {data : List Byte} (hlen : data.length ≤ 255) (hwf : Memory.wf s.txbuf = true) (j : Nat) :
    Memory.read (s.loadTx data).txbuf j = if j < data.length then data.getD j 0 else Memory.read s.txbuf j := by
  rw [State.loadTx_txbuf, List.take_of_length_le hlen]
  split
  · next hj => simpa using Memory.read_writeFrom_inside (start := 0) hwf hj
  · next hj => exact Memory.read_writeFrom_outside (.inr (by omega))

/-- Settles O10: an idle RCE takes the host's move; there is none, or it is the loading of `txbuf`. -/
theorem idleRceWaitsAndTakesPayload : Obligations.IdleRceWaitsAndTakesPayload := by
  intro s hwf hb
  refine ⟨fun hin => (step_of_idle hwf hb).trans (hostMove_nil hin), fun data rest hin hlen htx => ?_⟩
  refine ⟨s.popInput.loadTx data, (step_of_idle hwf hb).trans (hostMove_loadTx hin), ?_, State.loadTx_read hlen htx⟩
  rw [State.popInput_of_inputs hin]
  rfl

/-! ## A command cut short -/

/-- Up to as many steps as the pseudocode issues transactions, each step adds the next transaction, and no response is delivered. -/
theorem Prog.ticks_settle_of_le (p : Prog) (s : State) (hs : (p.settle s).InStep)
    (hr : (p.settle s).remaining = p.remaining s.radio []) {n : Nat} (hn : n ≤ (newEntries s (p.run s)).length) :
    (State.ticks n (p.settle s)).trace = s.trace ++ (newEntries s (p.run s)).take n ∧
      (State.ticks n (p.settle s)).responses = s.responses := by
  induction p generalizing s n with
  | respond st d | respondPending =>
    obtain rfl : n = 0 := by simpa [newEntries, Prog.run] using hn
    exact ⟨by simp [State.ticks, Prog.settle], rfl⟩
  | issue op k ih =>
    cases n with
    | zero => exact ⟨by simp [State.ticks, Prog.settle], rfl⟩
    | succ n =>
      obtain ⟨ht, hin, hrem⟩ := State.tick_issue s hs op k hr
      rw [ht] at hin hrem
      rw [Prog.run, newEntries_run_transact] at hn ⊢
      obtain ⟨htrace, hresponses⟩ := ih (s.reply op) (s.transact op) hin hrem (Nat.le_of_succ_le_succ hn)
      rw [Prog.settle, State.ticks, ht, htrace, hresponses]
      simp
  | update u p ih => exact ih (s.apply u) hs hr hn
  | ask k ih => exact ih s.radio s hs hr hn

/-- Once the response is delivered, further steps change nothing. -/
theorem State.ticks_acceptStep_of_lt (s : State) (w : Cmd48) {n : Nat}
    (hn : (newEntries s ((wordProgram s.config w).run (s.accept w))).length < n) :
    State.ticks n (s.acceptStep w) = (wordProgram s.config w).run (s.accept w) := by
  obtain ⟨m, rfl⟩ := Nat.exists_eq_add_of_le hn
  obtain ⟨-, -, hseq, -⟩ := Prog.run_frame (wordProgram s.config w) (s.accept w)
  rw [State.ticks_add, State.ticks_acceptStep]
  exact State.ticks_idle m (by rw [hseq]; rfl)

/-- What stands on the ports `n` steps after acceptance (R5): the first `n` transactions, and the response if they are all made. -/
theorem State.ticks_acceptStep_ports {s t : State} {w : Cmd48} (ht : (wordProgram s.config w).run (s.accept w) = t) (n : Nat) :
    (State.ticks n (s.acceptStep w)).trace = s.trace ++ (newEntries s t).take n ∧
      (State.ticks n (s.acceptStep w)).responses = if n ≤ (newEntries s t).length then s.responses else t.responses := by
  subst ht
  split
  · next hn =>
    obtain ⟨hs, hr⟩ := s.acceptStep_inStep w
    exact Prog.ticks_settle_of_le (wordProgram s.config w) (s.accept w) hs hr hn
  · next hn =>
    obtain ⟨-, ⟨es, htrace⟩, -⟩ := Prog.run_frame (wordProgram s.config w) (s.accept w)
    rw [Nat.not_le] at hn
    rw [List.take_of_length_le hn.le, State.ticks_acceptStep_of_lt s w hn, newEntries_of_trace (s := s) htrace]
    exact ⟨htrace, rfl⟩

/-- Settles O9: reset writes the registers and the sequencer alone, so the ports are as the `n` steps before it left them. -/
theorem resetMidCommandDropsIt : Obligations.ResetMidCommandDropsIt := by
  intro s w n rest i t hwf hb hin hd he
  have hrun : (wordProgram s.config w).run (State.accept { s with inputs := rest } w) = t := by
    rw [exec_eq_run] at he
    rw [wordProgram_of_decode s.config hd]
    exact Host.Outcome.next.inj he
  obtain ⟨htrace, hresponses⟩ := State.ticks_acceptStep_ports (s := { s with inputs := rest }) hrun n
  refine ⟨State.interruptedCommand { s with inputs := rest } w n, ?_, rfl, rfl, htrace, hresponses⟩
  rw [step_of_idle hwf hb, hostMove_interrupted hin, State.popInput_of_inputs hin]

end Sys2Proof.Machine
end

section
/-! PROOFS. The most transactions a command issues, and the two commands that issue delays (70_reset_and_hazards R255, R271; 20_memory
R76). -/

namespace Sys2Proof.Machine

/-! ## The transactions of a pseudocode, counted -/

/-- Whatever the environment answers, the pseudocode issues at most so many transactions. -/
def Prog.AtMost : Prog → Nat → Prop
  | .respond _ _, _ => True
  | .respondPending, _ => True
  | .issue _ _, 0 => False
  | .issue _ k, n + 1 => ∀ a, (k a).AtMost n
  | .update _ p, n => p.AtMost n
  | .ask k, n => ∀ r, (k r).AtMost n

theorem Prog.AtMost.run {p : Prog} {n : Nat} (hp : p.AtMost n) (s : State) : (newEntries s (p.run s)).length ≤ n := by
  induction p generalizing s n with
  | respond st d | respondPending => simp [newEntries, Prog.run]
  | issue op k ih =>
    cases n with
    | zero => exact hp.elim
    | succ n =>
      rw [Prog.run, newEntries_run_transact]
      exact Nat.succ_le_succ (ih (s.reply op) (hp _) (s.transact op))
  | update u p ih => exact ih hp (s.apply u)
  | ask k ih => exact ih s.radio (hp s.radio) s

theorem Prog.AtMost.succ {p : Prog} {n : Nat} (hp : p.AtMost n) : p.AtMost (n + 1) := by
  induction p generalizing n with
  | respond st d | respondPending => trivial
  | issue op k ih =>
    cases n with
    | zero => exact hp.elim
    | succ n => exact fun a => ih a (hp a)
  | update u p ih => exact ih hp
  | ask k ih => exact fun r => ih r (hp r)

section
variable {k f : Prog} {kb : Byte → Prog} {a : Addr} {v : Byte} {n : Nat}

theorem atMost_respond (st : Status) (d : Word) (n : Nat) : (Prog.respond st d).AtMost n := trivial

theorem Prog.AtMost.update (hk : k.AtMost n) (u : Upd) : (Prog.update u k).AtMost n := hk

theorem Prog.AtMost.ask {kr : Radio → Prog} (hk : ∀ r, (kr r).AtMost n) : (Prog.ask kr).AtMost n := hk

theorem Prog.AtMost.ite {P : Prop} [Decidable P] {q : Prog} (hq : q.AtMost n) (hk : k.AtMost n) :
    (if P then q else k).AtMost n := by
  split
  · exact hq
  · exact hk

theorem Prog.AtMost.regWriteElse (hf : f.AtMost n) (hk : k.AtMost n) : (regWriteElse f a v k).AtMost (n + 1) := by
  rintro (d | _)
  · exact hk
  · exact hf

theorem Prog.AtMost.regWrite (hk : k.AtMost n) : (regWrite a v k).AtMost (n + 1) := .regWriteElse trivial hk

theorem Prog.AtMost.regReadElse (hf : f.AtMost n) (hk : ∀ b, (kb b).AtMost n) : (regReadElse f a kb).AtMost (n + 1) := by
  rintro (d | _)
  · exact hk _
  · exact hf

theorem Prog.AtMost.regRead (hk : ∀ b, (kb b).AtMost n) : (regRead a kb).AtMost (n + 1) := .regReadElse trivial hk

theorem Prog.AtMost.rmw {mask : Byte} (hk : k.AtMost n) : (rmw a mask v k).AtMost (n + 2) := .regRead fun _ => .regWrite hk

theorem Prog.AtMost.busInit (hk : k.AtMost n) : (busInit k).AtMost (n + 1) := by
  rintro (d | _)
  · exact hk
  · trivial

theorem Prog.AtMost.delay {ms : Nat} (hk : k.AtMost n) : (delay ms k).AtMost (n + 1) := fun _ => hk

theorem Prog.AtMost.setModeElse {c : Config} {m : Mode} (hf : f.AtMost n) (hk : k.AtMost n) :
    (setModeElse f c m k).AtMost (n + 1) := .regWriteElse hf (hk.update _)

theorem Prog.AtMost.setMode {c : Config} {m : Mode} (hk : k.AtMost n) : (setMode c m k).AtMost (n + 1) := .setModeElse trivial hk

/-- A burst of zero bytes issues nothing (R75). -/
theorem Prog.AtMost.burstWriteElse {len next : Nat} (hf : f.AtMost n) (hk : k.AtMost n) :
    (burstWriteElse f a len next k).AtMost (n + 1) := by
  refine .ite (hk.succ.update _) ?_
  rintro (d | _)
  · exact hk
  · exact hf

theorem Prog.AtMost.burstRead {len next : Nat} (hk : k.AtMost n) : (burstRead a len next k).AtMost (n + 1) := by
  refine .ite (hk.succ.update _) ?_
  rintro (d | _)
  · exact hk
  · trivial

theorem Prog.AtMost.cleanupWrite {onOk : Prog → Prog} (hok : (onOk k).AtMost n) (hk : k.AtMost n) :
    (cleanupWrite a v onOk k).AtMost (n + 1) := by
  rintro (d | _)
  · exact hok
  · exact hk

end

/-! ## The transactions of the commands, counted -/

/-- The two cleanup writes (R184), within any bound that leaves room for them. -/
theorem progCleanup_atMost (c : Config) (n : Nat) : (progCleanup c).AtMost (n + 2) :=
  have hirq : (cleanupWrite c.addrIrqFlags c.irqTxDone id .respondPending).AtMost (n + 1) := .cleanupWrite trivial trivial
  .update (.cleanupWrite (hirq.update _) hirq) _

/-- Each iteration of the poll loop is at most a read and a delay (R182, R271). -/
theorem progPollTxDone_atMost (c : Config) (n : Nat) : (progPollTxDone c n).AtMost (2 * n + 2) := by
  induction n with
  | zero => exact .update (progCleanup_atMost c 0) _
  | succ n ih =>
    have hexit (st : Status) : (Prog.update (.setPending st) (progCleanup c)).AtMost (2 * n + 3) :=
      .update (progCleanup_atMost c (2 * n + 1)) _
    exact .update (.update (.regReadElse (hexit _) fun _ => .ite (hexit _) (.delay ih)) _) _

/-- Five transactions arm the chip (R180). -/
theorem progSendPacket_atMost (c : Config) (len : Byte) : (progSendPacket c len).AtMost (2 * c.pollCap + 2 + 5) :=
  .setModeElse trivial <| .regWriteElse trivial <| .burstWriteElse trivial <| .regWriteElse trivial <| .setModeElse trivial <|
    .update (progPollTxDone_atMost c c.pollCap) _

/-- The seven transactions of the tail (R212), within any bound that leaves room for them. -/
theorem progInitTail_atMost (c : Config) (n : Nat) : (progInitTail c).AtMost (n + 7) :=
  .update (.setMode <| .regWrite <| .regWrite <| .rmw <| .regWrite <| .setMode <| atMost_respond .ok 0 n) _

/-- Each iteration of the version loop is at most a read and a delay (R211, R271). -/
theorem progPollVersion_atMost (c : Config) (n : Nat) : (progPollVersion c n).AtMost (2 * n + 7) := by
  induction n with
  | zero => exact atMost_respond _ _ _
  | succ n ih =>
    exact .update (.update (.regRead fun _ => .ite (progInitTail_atMost c (2 * n + 1)) (.delay ih)) _) _

/-- One read per address (R204). -/
theorem progDumpFrom_atMost (c : Config) (i n : Nat) : (progDumpFrom c i n).AtMost n := by
  induction n generalizing i with
  | zero => exact atMost_respond _ _ _
  | succ n ih => exact .regReadElse trivial fun _ => (ih (i + 1)).update _

theorem progReceivePacket_atMost (c : Config) (cap : BitVec 32) : (progReceivePacket c cap).AtMost 7 :=
  .regRead fun _ => .regWrite <| .ite trivial <| .ite trivial <| .ask fun _ => .regRead fun _ => .setMode <| .regRead fun _ =>
    .regWrite <| .burstRead <| atMost_respond _ _ 0

/-- The commands without a loop: `RECEIVE_PACKET` is the longest of them (R190). -/
theorem program_atMost_seven (c : Config) {i : Instr} (hsend : ∀ len, i ≠ .sendPacket len) (hinit : i ≠ .driverInit)
    (hdump : i ≠ .dumpRegisters) : (program c i).AtMost 7 := by
  have hend := atMost_respond
  have hset {n : Nat} : (Prog.respond .ok 0).AtMost n := hend .ok 0 n
  unfold program
  cases i with
  | sendPacket len => exact absurd rfl (hsend len)
  | driverInit => exact absurd rfl hinit
  | dumpRegisters => exact absurd rfl hdump
  | close | modeSleep | modeStandby | modeReceive | modeTransmit => exact .setMode hset
  | setFrequency hz => exact .update (.regWrite (.regWrite (.regWrite hset))) _
  | setSpreadingFactor sf => exact .ite (.regWrite (.regWrite (.rmw hset))) (.regWrite (.regWrite (.rmw hset)))
  | setBandwidth _ | setCodingRate _ | setCrc _ => exact .rmw hset
  | setPreambleLength n => exact .regWrite (.regWrite hset)
  | setSyncWord _ | setTxPower _ => exact .regWrite hset
  | setDioMapping pin mode => exact .ite (hend _ _ _) (.rmw hset)
  | getFrequency => exact .regRead fun _ => .regRead fun _ => .regRead fun _ => hend _ _ _
  | getBandwidth => exact .regRead fun _ => .ite (hend _ _ _) (hend _ _ _)
  | getPreambleLength => exact .regRead fun _ => .regRead fun _ => hend _ _ _
  | getSpreadingFactor | getCodingRate | getSyncWord | getCrc | getTxPower | getIrqFlags | packetSnr =>
    exact .regRead fun _ => hend _ _ _
  | getDioMapping pin => exact .ite (hend _ _ _) (.regRead fun _ => hend _ _ _)
  | setExplicitHeader => exact .rmw (hset.update _)
  | setImplicitHeader size => exact .rmw (.regWrite ((hset.update _).update _))
  | receivePacket cap => exact progReceivePacket_atMost c cap
  | pollReceived => exact .regRead fun _ => .ite (.regWriteElse (hend _ _ _) (hend _ _ _)) (hend _ _ _)
  | packetLostCount => exact .ask fun _ => hend _ _ _
  | packetRssi => exact .regRead fun _ => .ask fun _ => hend _ _ _

/-! ## Delays -/

/-- The operation does not stand on the port as a delay. -/
def Op.NoDelay (op : Op) : Prop := ∀ tx, (op.onPort tx).isDelay = false

@[simp] theorem noDelay_write (a : Addr) (v : Byte) : (Op.write a v).NoDelay := fun _ => rfl

@[simp] theorem noDelay_read (a : Addr) : (Op.read a).NoDelay := fun _ => rfl

@[simp] theorem noDelay_burstRead (a : Addr) (n : Nat) : (Op.burstRead a n).NoDelay := fun _ => rfl

/-- The pseudocode issues no delay. -/
abbrev Prog.NoDelay (p : Prog) : Prop := p.Only Op.NoDelay fun _ => True

theorem Prog.NoDelay.newEntries {p : Prog} (hp : p.NoDelay) (s : State) : ∀ e ∈ newEntries s (p.run s), e.txn.isDelay = false :=
  TraceGrownBy.newEntries <|
    hp.run (fun _ _ hop h => h.transact (hop _)) (fun _ _ _ h => h) (fun _ _ _ h => h) (.refl (fun e => e.txn.isDelay = false) s)

theorem progDumpFrom_noDelay (c : Config) (i n : Nat) : (progDumpFrom c i n).NoDelay := by
  induction n generalizing i with
  | zero => trivial
  | succ n ih => simp [progDumpFrom, ih]

/-- Only the poll loop of `SEND_PACKET` and the version loop of `DRIVER_INIT` wait (R76). -/
theorem program_noDelay (c : Config) {i : Instr} (hinit : i ≠ .driverInit) (hsend : ∀ len, i ≠ .sendPacket len) :
    (program c i).NoDelay := by
  cases i with
  | driverInit => exact absurd rfl hinit
  | sendPacket len => exact absurd rfl (hsend len)
  | dumpRegisters => exact progDumpFrom_noDelay c 0 c.dumpCount
  | receivePacket cap => simp [program, progReceivePacket]
  | close | modeSleep | modeStandby | modeReceive | modeTransmit => simp [program, progClose, progMode]
  | setFrequency _ | setSpreadingFactor _ | setPreambleLength _ | setSyncWord _ | setTxPower _ =>
    simp [program, progSetFrequency, progSetSpreadingFactor, progSetPreambleLength, progSetSyncWord, progSetTxPower]
  | setBandwidth _ | setCodingRate _ | setCrc _ | setDioMapping _ _ =>
    simp [program, progSetBandwidth, progSetCodingRate, progSetCrc, progSetDioMapping]
  | getFrequency | getPreambleLength | getBandwidth | getDioMapping _ =>
    simp [program, progGetFrequency, progGetPreambleLength, progGetBandwidth, progGetDioMapping]
  | getSpreadingFactor | getCodingRate | getSyncWord | getCrc | getTxPower =>
    simp [program, progGetSpreadingFactor, progGetCodingRate, progGetSyncWord, progGetCrc, progGetTxPower]
  | setExplicitHeader | setImplicitHeader _ => simp [program, progSetExplicitHeader, progSetImplicitHeader]
  | pollReceived | getIrqFlags | packetLostCount | packetRssi | packetSnr =>
    simp [program, progPollReceived, progGetIrqFlags, progPacketLostCount, progPacketRssi, progPacketSnr]

/-- Settles O28: the three commands with a loop by their loops' bounds, every other by the bound 7; delays by the text of the pseudocode. -/
theorem transactionBounds : Obligations.TransactionBounds := by
  intro i s t he
  rw [exec_eq_run] at he
  cases he
  refine ⟨?_, fun hinit hsend => (program_noDelay s.config hinit hsend).newEntries s⟩
  cases i with
  | sendPacket len =>
    have hlen := (progSendPacket_atMost s.config len).run s
    calc _ ≤ 2 * s.config.pollCap + 2 + 5 := hlen
      _ = 5 + 2 * s.config.pollCap + 2 := by omega
  | driverInit =>
    have hlen := (Prog.AtMost.busInit (progPollVersion_atMost s.config s.config.retryBudget)).run s
    calc _ ≤ 2 * s.config.retryBudget + 7 + 1 := hlen
      _ = 1 + 2 * s.config.retryBudget + 7 := by omega
  | dumpRegisters => exact (progDumpFrom_atMost s.config 0 s.config.dumpCount).run s
  | _ => exact (program_atMost_seven s.config (by simp) (by simp) (by simp)).run s

end Sys2Proof.Machine
end
